-- ==== Sys2Proof/Word.lean ====
section
/-! DEFINITION. The word types of the NK8 and the one shape of sparse data: a list of key and value pairs. -/

namespace Sys2Proof

/-- One byte. -/
abbrev Byte := BitVec 8
/-- A register of a BAR0 block, a descriptor word, a control or data packet word. -/
abbrev Word := BitVec 32
/-- A 64-bit value: PTC, TIME, STEP, an identity, a mask of link slots. -/
abbrev DWord := BitVec 64

/-- Sparse data by key, kept with strictly rising keys and without entries equal to the default
(Sys2Proof/Machine/Map.lean has the operations). -/
abbrev FMap (α : Type) := List (Nat × α)

/-- A byte-addressed memory: the same shape as a list of `Host.Cell`. -/
abbrev Mem := FMap Byte

end Sys2Proof
end

