-- ==== Sys2Proof/Syntax.lean ====
section
/-! DEFINITION. The commands of the NK8: one constructor of `Instr` for each row of spec/opcode_table.json,
with the operands that the row's rule names.
A command is what the host, firmware, a pin or one of the package's own units makes happen at one moment;
what lies outside the package (a reading, a packet, an error found) is an operand. -/

namespace Sys2Proof

/-- A core by panel and physical core index (R19). -/
structure CoreId where
  panel : Nat
  core : Nat
deriving DecidableEq, Repr

/-- The straps sampled at PERST_N deassertion (R490). -/
structure Straps where
  hostBoot : Bool
  mgmtAddr : Nat
  test : Bool
deriving DecidableEq, Repr

/-- How FW_START ends (R421, R454): READY, with the lanes that repair has replaced at entry i of panel p at key 3p + i (R17, R419), or
FAILED with its code. -/
inductive Bringup where
  | ok (repaired : FMap Nat)
  | hbmTrain | stashMount | selfTest
deriving DecidableEq, Repr

/-- What a read found in one stored word: its byte address in the read block's memory, and whether the error
is a double (uncorrectable) one (R229, R240). -/
structure WordError where
  addr : Nat
  double : Bool
deriving DecidableEq, Repr

/-- A host access through BAR4 (R258). -/
inductive HostAccess where
  | read (n : Nat)
  | write (bytes : List Byte)
deriving DecidableEq, Repr

/-- What the stash medium did while a command ran (R245, R247): nothing wrong, or a page (counted from the
command's first) whose read-back compare failed or that could not be decoded. -/
inductive StsMedium where
  | ok | verifyFail (page : Nat) | uncorr (page : Nat)
deriving DecidableEq, Repr

/-- Where a cast-on packet comes from (R274): a node of this package, or a ply link. -/
inductive CastSrc where
  | node (n : Nat) | link (l : Nat)
deriving DecidableEq, Repr

/-- The BODY of a NOTICE (R465). -/
structure NoticeBody where
  node : Nat
  slot : Nat
  dir : Nat
  kind : Nat
  origin : Nat
  time : DWord
  ptc : DWord
  typ : Nat
  bit : Nat
  panel : Nat
  missing : Word
deriving DecidableEq, Repr

/-- The ways a request to host memory fails, in the order of HOST_XFER_INFO.KIND (R369, R381). -/
inductive HostFailKind where
  | timeout | unsupported | abort | poisoned | resetOrBme
deriving DecidableEq, Repr

/-- A panel interrupt controller input change (R383, R384). -/
inductive Edge where
  | rise | fall
deriving DecidableEq, Repr

/-- The PF reset events of R367. -/
inductive PfReset where
  | flr | hotReset | linkDown
deriving DecidableEq, Repr

/-- Which reference (R390). -/
inductive RefClk where
  | sysref | refclk100
deriving DecidableEq, Repr

/-- The supply rails of R491. -/
inductive Rail where
  | vcore (p : Nat) | vsram (p : Nat) | vhbm (p : Nat) | vhbmq (p : Nat)
  | vhbmPp | vstash | vphy | vio | v3p3
deriving DecidableEq, Repr

/-- What a window of the in-service test found (R475): nothing, or a signature mismatch in its n-th slice. -/
inductive IstResult where
  | pass | mismatch (slice : Nat)
deriving DecidableEq, Repr

/-- The management bindings of R477. -/
inductive MctpBinding where
  | i3c | smbus | vdm
deriving DecidableEq, Repr

/-- How an SPDM request comes: over MCTP, or through the PF's DOE mailbox (R482). -/
inductive SpdmPath where
  | mctp (b : MctpBinding)
  | doe
deriving DecidableEq, Repr

/-- An operation on the test port (R489): boundary scan captures the levels at the lands (`inputs` are those of the signals that no
register holds), drives the output cells or lets them go; and what a hart's debug module does. -/
inductive TestOp where
  | sample (inputs : Nat)
  | drive (levels : Option Nat)
  | halt (panel hart : Nat)
  | resume (panel hart : Nat)
  | read (panel hart addr : Nat)
  | write (panel hart addr : Nat) (value : Word)
deriving DecidableEq, Repr

/-- The commands: one constructor per row of spec/opcode_table.json, in the table's order. -/
inductive Instr where
  | perstNDeassert (straps : Straps)
  | perstNAssert
  | bootRom
  | hostload
  | fwBringup (r : Bringup)
  | topoApply
  | loadBegin
  | loadDone
  | bootStart
  | strGo (c : CoreId) (timed : Bool)
  | segmentStart (c : CoreId)
  | issueCheck (c : CoreId)
  | holdFreeze
  | lateItemArrive (n : Nat)
  | holdPeriodicRefresh
  | holdRefresh
  | resumeBroadcast
  | holdResume
  | holdWatchdogExpire
  | debugHold
  | debugRelease
  | planSnapTake
  | nop (c : CoreId)
  | repeat_ (c : CoreId)
  | chain (c : CoreId)
  | end_ (c : CoreId)
  | wait (c : CoreId)
  | signal (c : CoreId)
  | mark (c : CoreId)
  | break_ (c : CoreId)
  | region (c : CoreId)
  | copy (c : CoreId)
  | pagedRd (c : CoreId)
  | pagedWr (c : CoreId)
  | feed (c : CoreId)
  | inputDigestUpdate (c : CoreId)
  | hostWindowGrant
  | hostRequestFail (c : CoreId) (op first count : Nat) (kind : HostFailKind)
  | loadPlanes (c : CoreId)
  | multiply (c : CoreId)
  | add (c : CoreId)
  | sub (c : CoreId)
  | mul (c : CoreId)
  | fma (c : CoreId)
  | min (c : CoreId)
  | max (c : CoreId)
  | adds (c : CoreId)
  | subs (c : CoreId)
  | and (c : CoreId)
  | or (c : CoreId)
  | xor (c : CoreId)
  | shl (c : CoreId)
  | sra (c : CoreId)
  | rcp (c : CoreId)
  | sqrt (c : CoreId)
  | rsqrt (c : CoreId)
  | exp2 (c : CoreId)
  | log2 (c : CoreId)
  | exp (c : CoreId)
  | tanh (c : CoreId)
  | sigmoid (c : CoreId)
  | cvt (c : CoreId)
  | rsum (c : CoreId)
  | rmax (c : CoreId)
  | transpose (c : CoreId)
  | blockperm (c : CoreId)
  | reshape (c : CoreId)
  | packW (c : CoreId)
  | packA (c : CoreId)
  | unpack (c : CoreId)
  | gather (c : CoreId)
  | scatter (c : CoreId)
  | mask (c : CoreId)
  | clAdd (c : CoreId)
  | addSend (c : CoreId)
  | argmax (c : CoreId)
  | topk (c : CoreId)
  | sort (c : CoreId)
  | sample (c : CoreId)
  | expand (c : CoreId)
  | descriptorComplete (c : CoreId) (op : Nat)
  | streamDrained (c : CoreId)
  | landingPortWrite (c : CoreId)
  | sknWriteback (c : CoreId) (bank : Nat)
  | sknScrub (c : CoreId) (found : List WordError)
  | sknInject (p : Nat) (w : Word)
  | saInject (p : Nat) (w : Word)
  | hbmGranuleStart (p st pc : Nat) (found : List WordError)
  | fetchGranuleRequest (c : CoreId)
  | hbmRefreshWindow (p st : Nat)
  | hbmScrubSlot (p st : Nat) (found : List WordError)
  | hbmFreeRefresh (p st : Nat)
  | hbmPatrolScrub (p st pc : Nat) (found : List WordError)
  | hbmModeWrite (p st : Nat) (planned : Bool)
  | hbmInject (p st : Nat) (w : Word)
  | bar4Access (off : Nat) (a : HostAccess)
  | stashPageDecoded (p req : Nat) (recovered uncorr : Bool)
  | stashPageDeliver (p : Nat)
  | stsRead (p : Nat)
  | stsProgram (p : Nat)
  | stsErase (p : Nat)
  | stsVerify (p : Nat)
  | stsBbRead (p : Nat)
  | stsCommandDone (p : Nat) (m : StsMedium) (found : List WordError)
  | stashBlockScrub (p block : Nat) (weak : Bool) (uncorrPage : Option Nat)
  | blackBoxCopy (fail0 fail1 : Bool)
  | rowValueWrite (p : Nat) (w : Word)
  | castCtrlArrive
  | castArrive (src : CastSrc) (lot node slot : Nat)
  | castRelease (src : CastSrc) (lot node remaining : Nat) (base : DWord) (replayed : Bool)
  | localRelease
  | castonNodeTimeout (n : Nat)
  | castAbort (src : CastSrc) (lot node : Nat)
  | notice (src : CastSrc) (lot : Nat) (b : NoticeBody)
  | castRearm
  | bindOffStart (lot : Nat)
  | bindOffComplete
  | plyEnWrite (l : Nat) (w : Word)
  | trainingDone (l : Nat)
  | trainingTimeout (l : Nat)
  | identExchange (l : Nat) (peer : DWord) (peerMatches : Bool)
  | gaugingDone (l gauge : Nat)
  | laneLockLost (l : Nat)
  | frameReceive (l : Nat) (bytes : List Byte) (fec : Nat)
  | frameSlot (l : Nat)
  | ackTimerExpire (l cls : Nat)
  | graceExpire (l : Nat)
  | plyRetrain (l : Nat)
  | plyRegauge (l : Nat)
  | plyLotWrite (l e : Nat) (w : Word)
  | fabCtxActivate (x : Nat) (w : Word)
  | fabTblWrite (w : Word)
  | injectionGrant (c : CoreId)
  | dataPacket (l : Nat)
  | fwMsg (l vl : Nat)
  | sqTail (q v : Nat)
  | cqHead (q v : Nat)
  | generate (q : Nat) (ringOk bufOk : Bool)
  | cancel (q : Nat) (ringOk : Bool)
  | ripBack (q : Nat) (ringOk : Bool)
  | forecast (q : Nat) (ringOk : Bool)
  | createQp (q : Nat) (ringOk : Bool)
  | deleteQp (q : Nat) (ringOk : Bool)
  | registerPrefix (q : Nat) (ringOk bufOk : Bool)
  | releasePrefix (q : Nat) (ringOk : Bool)
  | registerMotif (q : Nat) (ringOk : Bool)
  | releaseMotif (q : Nat) (ringOk : Bool)
  | assignQp (q : Nat) (ringOk : Bool)
  | prefixPrefillDone (slot : Nat)
  | motifReleaseDone (slot : Nat)
  | servingStep (start : Nat) (failed : List Nat)
  | forecastBatch (p start : Nat) (inOk outOk : Bool)
  | completionPost (q : Nat) (ringOk : Bool)
  | srvAqSizeWrite (vf : Nat) (w : Word)
  | flrVf (vf : Nat)
  | pfReset (k : PfReset)
  | linkChange (speed width : Nat) (flit : Bool)
  | hostIrqRearm
  | vfIrqRearm (vf : Nat)
  | msixUnmask (fn : Nat)
  | icuSourceEvent (p n : Nat) (e : Edge)
  | icuClaim (p h : Nat)
  | icuEoi (p h src : Nat)
  | icuHoldoffExpire (p g : Nat)
  | icuXpanelGo (p target : Nat)
  | icuPendingClear (p n : Nat)
  | sysrefLost
  | holdoverEnd
  | referenceRestored (r : RefClk)
  | refclkLost
  | pllUnlock
  | d2dCrcFail (p j : Nat)
  | d2dRetrySuccess (p j : Nat)
  | d2dPhase (p j : Nat)
  | planSetChange (v : Nat)
  | planSwitchDone
  | timeStep (alsoSlew : Bool)
  | timeSlew (alsoStep : Bool)
  | slewAdjust
  | ppsInEdge
  | pwrDomWrite (p dom : Nat) (en : Bool)
  | domainReached (p dom : Nat)
  | pwrLimitWrite (w : Word)
  | thmSample (p : Nat) (reading : Int)
  | thermalFrameStart (p : Nat)
  | thermalWithdraw (p : Nat)
  | dutyUpdate (p : Nat)
  | pwrMeasure (watts : Nat)
  | thermtrip (p : Nat)
  | fltStop
  | hwStopTimeout
  | hostStop
  | fltClear
  | istWindow (entry : Nat) (r : IstResult)
  | evrRecord (r : Nat)
  | evrSoft (r : Nat)
  | ccWatchdog (p : Nat)
  | ccWdogKick (p : Nat)
  | svnCommit
  | smbusFallback
  | setEndpointId (b : MctpBinding) (eid : Nat)
  | getEndpointId (b : MctpBinding)
  | getMctpVersionSupport (b : MctpBinding) (typ : Nat)
  | getMessageTypeSupport (b : MctpBinding)
  | getEndpointUuid (b : MctpBinding)
  | setEventReceiver (b : MctpBinding) (eid : Nat)
  | pldmEffecterWrite (watts : Nat)
  | pldmFirmwareUpdate (image : List Byte)
  | getVersion (via : SpdmPath) (req : List Byte)
  | getCapabilities (via : SpdmPath) (req : List Byte)
  | negotiateAlgorithms (via : SpdmPath) (req : List Byte)
  | getDigests (via : SpdmPath) (req : List Byte)
  | getCertificate (via : SpdmPath) (slot : Nat) (req : List Byte)
  | challenge (via : SpdmPath) (slot : Nat) (req : List Byte)
  | getMeasurements (via : SpdmPath) (slot ix : Nat) (req : List Byte)
  | getSlhSig (via : SpdmPath) (req : List Byte)
  | registerWrite (fn addr size : Nat) (value : DWord) (poisoned : Bool)
  | registerRead (fn addr size : Nat)
  | fetchGranuleReturn (c : CoreId)
  | localSramScrub (p : Nat) (found : List WordError)
  | fwAssert
  | supplyRailChange (r : Rail) (inRange : Bool)
  | i3cAddressAssigned (addr : Nat)
  | testPortAccess (op : TestOp)
  | bbDone
deriving DecidableEq, Repr

end Sys2Proof
end

