-- ==== Sys2Proof/Decode.lean ====
section
/-! DEFINITION. The command that a word of spec/opcode_table.json spells. The table gives no row any bits: its rows are
operations and events of a block, which reach the queue whole, so no word spells one. -/

namespace Sys2Proof

/-- The command of a table word: none, because no row has bits. -/
def decodeTableWord (_nbits _w : Nat) : Option Instr := none

end Sys2Proof
end

