-- ==== Sys2Proof/Config.lean ====
section
/-! DEFINITION. The values that the manual leaves open or that an implementation fixes, as constants
without a body: nothing can be proved about the value of one. -/

namespace Sys2Proof.Config

/-- The result bits of the function units RCP, RSQRT, EXP2, LOG2, EXP, TANH and SIGMOID outside the
special cases of R190: the tables of R191 ship with Ovtum and not in the manual.
`op` is the OPC (0x10 to 0x17), `rmode` the rounding mode (log entry 6). -/
opaque funcUnit : (op rmode : Nat) → Word → Word

/-- What TOPK writes at position j of row r when j is at or beyond the row's length: the rule gives K indices of a row of L elements
and does not say that K is at most L (R208, log entry 126). -/
opaque topkBeyond : (r j : Nat) → Word

/-- The firmware of a panel's control complex in the body of an image: the manual gives the body no layout (R423, R426). Signed data and
panel, to the bytes of its local SRAM. -/
opaque panelFirmware : (image : List Byte) → (panel : Nat) → List Byte

/-- A running hart waits for an interrupt (R455): 4 p + h, and the wall tick. What firmware does on a hart is not in the manual. -/
opaque hartWaits : (hart wall : Nat) → Bool

/-- The bytes beyond 64 that the endpoint's message buffer holds: a message longer than the buffer overflows it (R477, R486). -/
opaque mctpSpare : Nat

/-- SPDM and MCTP response bytes that the manual takes from DSP0236 and DSP0274 (R477, R482):
request code and request bytes to response body. -/
opaque mgmtResponse : (code : Nat) → List Byte → List Byte

/-- The signatures of the attestation service (R482): algorithm (0 RSA, 1 SLH-DSA) and transcript hash. -/
opaque attestSign : (alg : Nat) → List Byte → List Byte

/-- The two corrupted bytes of a two-symbol HBM injection (R260 names no bits): the word's bytes to
the bytes as read. -/
opaque hbmTwoSymbol : List Byte → List Byte

/-- The data of a stash page that cannot be decoded, "delivered as read" (R243): page address, byte index,
the stored byte, to the byte as read. -/
opaque stashAsRead : (page ix : Nat) → Byte → Byte

/-- A 32-byte HBM word with an uncorrectable error, "delivered as read" (R240): address, byte index,
the stored byte. -/
opaque hbmAsRead : (addr ix : Nat) → Byte → Byte

/-- A skein word with a stored double-bit error, read "as stored" (R229): word address, byte index, the byte without the error, to the
byte as read. -/
opaque skeinAsRead : (addr ix : Nat) → Byte → Byte

/-- The measurement block 6 of R483: the SHA-384 of the boot ROM. -/
opaque bootRomDigest : List Byte

/-- The draft length that the pattern's chart set supports for a motif (R349); the manual gives no
place in the image that holds it. -/
opaque motifDraftMax : Nat → Nat

/-- The endpoint UUID of R477. -/
opaque endpointUuid : List Byte

/-- The die-to-die interface, by position (0 to 9), through which a beat from a panel reaches a panel that is not next to it:
the manual gives no route (R26, R102). -/
opaque d2dEntry : (src dst : Nat) → Nat

/-- The child node behind an arrival that a link brought: CAST_ARRIVE carries the parent node and the slot only (R307), and the
release goes back to the node that sent it (R276). Link, parent node, slot. -/
opaque childNode : (link node slot : Nat) → Nat

/-- The signaller that ROW_LAST_SRC shows after a SET by the host (R272, R288): the layout has no code for it. -/
opaque hostSignaller : Word

/-- Which of the free contexts, prefix slots, motif slots or pool pages firmware takes: the manual fixes no choice (R335, R338,
R340, R343). The argument counts the choices made. -/
opaque pickFree : Nat → Nat

/-- Where a prompt is staged that finds no place in one piece in the prompt area: the manual does not say (R335). The argument counts the
choices made. -/
opaque promptPlace : Nat → Nat

/-- IN_TOKEN of a request whose prefix leaves nothing to prefill: no record has emitted a token for it (R336, R346). -/
opaque firstToken : (ctx : Nat) → Nat

/-- The projection of R335 when PREFILL_RATE is 0: tokens to ns. -/
opaque projectionAtZeroRate : Nat → Nat

/-- How many pages of a black-box copy are programmed when PERST_N is asserted while it runs (R249, R493): panel, TIME. -/
opaque boxProgress : (panel time : Nat) → Nat

/-- How many pages or blocks a running stash command has finished when PERST_N is asserted (R493): panel, TIME. -/
opaque stsProgress : (panel time : Nat) → Nat

/-- PWR_FAULT PANEL and CORE of an access that no core has issued: the rule gives the fields "of the issuing core" (R417). -/
opaque noIssuingCore : BitVec 12

/-- The fused vendor ID of R360. -/
opaque vendorId : BitVec 16

end Sys2Proof.Config
end

