-- ==== Sys2Proof/Machine/State.lean ====
section
/-! DEFINITION. The state of one NK8 package as plain data, the ways a step can stop, and the state after reset.
Registers of BAR0 live in `regs` (Machine/Regs.lean gives their fields and reset values); what is no register,
or what the machine itself drives, is a field of its own, and the register view of it is computed on a read. -/

namespace Sys2Proof.Machine

/-! ## Fixed by the factory -/

/-- The grades of R2, and no others: NK8-2048-H, NK8-2048-G, NK8-1024-H and NK8-0512-H. -/
inductive Grade where
  | h2048 | g2048 | h1024 | h0512
deriving DecidableEq, Repr

/-- What the factory fixed in this package: the grade (R2), the slot maps (R24), the identity (R324),
the key hashes and the minimum SVN (R424, R481). -/
structure Fuses where
  grade : Grade := .h2048
  /-- ENABLED of PNL_SLOT_MAPk of panel p at key 16p + k; unlisted: slots 0 to 15 (log entry 2). -/
  slotMap : FMap (BitVec 18) := []
  /-- FAB_SELF_ID, bits [4:0] zero, never all zero (R324). -/
  selfId : DWord := 32
  rsaKeyHash : List Byte := []
  slhKeyHash : List Byte := []
  svnMin : Nat := 0
  /-- A panel's fused VCORE setpoint in mV for a plan clock setting (R492) at key 3p + setting; unlisted: 750 (log entry 2). -/
  vcore : FMap Nat := []
deriving DecidableEq, Repr

/-- The panels of the grade: its lowest-numbered sites (R2, R3). -/
def Fuses.panels (f : Fuses) : Nat := match f.grade with
  | .h2048 | .g2048 => 8
  | .h1024 => 4
  | .h0512 => 2

/-- The stacks are HBM3E; of the -G grade HBM3 (R2, R5). -/
def Fuses.hbm3e (f : Fuses) : Bool := f.grade != .g2048

/-! ## Streams -/

/-- A descriptor: its 16 words (R37). -/
abbrev Desc := List Word

/-- STR_STATE.STATE (R68). -/
inductive StreamSt where
  | idle | armed | running | faulted
deriving DecidableEq, Repr

/-- An accepted launch (R69); `unchecked` marks a GO written while CAST_STATE was ARRIVED (R281). -/
structure Launch where
  chart : Nat
  start : Nat
  timed : Bool
  unchecked : Bool
deriving DecidableEq, Repr

/-- One open loop of the stream order, innermost first in a list (R49, R64). -/
structure Loop where
  first : Nat       -- address of the body's first descriptor
  last : Nat        -- address of its last descriptor
  count : Nat       -- latched
  iter : Nat
  entry : Nat       -- L, the REPEAT's issue tick
  period : Nat
  frame : Nat       -- current frame base at this level
deriving DecidableEq, Repr

/-- One loop as fetch follows it (R65): the addresses of its body's first and last descriptor; `count` is none until
an indirect count is latched. -/
structure FetchLoop where
  first : Nat
  last : Nat
  count : Option Nat
  iter : Nat
  gran : Nat := 0                     -- the granule that holds its REPEAT
deriving DecidableEq, Repr

/-- A descriptor that fetch has requested (R51, R239): its address, its words, its granule, and the wall tick of its
decoding once it is decoded. -/
structure Fetched where
  addr : Nat
  desc : Desc
  gran : Nat
  tick : Option Nat := none
deriving DecidableEq, Repr

/-- A chart granule that fetch has requested (R239): the descriptor at which the stream order enters it and the loops open there,
the bytes with which the walk went on, and once the controller has started it the bytes as read and the wall tick at which its
descriptors are returned. -/
structure FetchGranule where
  id : Nat
  addr : Nat
  entry : Nat := 0
  loops : List FetchLoop := []
  guess : List Byte := []
  bytes : List Byte := []
  ready : Option Nat := none
deriving DecidableEq, Repr

/-- The fetch of one chart in stream order (R51, R65, R239). -/
structure Fetch where
  window : List Fetched := []
  next : Option Nat := none           -- address of the next descriptor to request
  loops : List FetchLoop := []        -- innermost first
  out : List FetchGranule := []
  wait : Bool := false                -- waits for an indirect count (R65)
  stall : List Nat := []              -- granules with a change of flow that must be decoded before the next request (R65, R71)
deriving DecidableEq, Repr

/-- A late item of a hold request (R94). Cores are keys 288 p + c. -/
inductive LateItem where
  | producer (core op : Nat)
  | counter (core ctr : Nat) (value : Int)
  | token (key debt : Nat)             -- governor window key and the debt its payment must reach
  | window (core id : Nat)
  | fetch (core : Nat)
  | latch (core : Nat)                  -- an indirect count to be read once its producers are complete, and the next descriptor (R64)
  | queueEntry (core eng : Nat)
  | scoreboard (core : Nat)
  | thermal (panel : Nat)
  | critical (panel : Nat)             -- a THM_CRIT request: not withdrawn (R414)
  | d2d (panel i : Nat)
  | debug
deriving DecidableEq, Repr

/-- A descriptor that passed its issue check and has not issued: its number on the core, its segment, its issue tick,
the effective bases of its operand fields (R44; a HOST operand resolved as R368 says), its iteration indices and the
latched count (R64, R138), the loops open at it. -/
structure Checked where
  id : Nat
  seg : Nat
  desc : Desc
  addr : Nat
  tick : Nat
  timed : Bool
  eff : List Nat
  i0 : Nat
  i1 : Nat
  n0 : Nat
  depth : Nat
  /-- what it waits for beyond its tick: in an untimed segment (R73), or when its check came too late for a hold before its tick
  (log entry 130). -/
  needs : List LateItem := []
deriving DecidableEq, Repr

/-- Where the checks of one segment stand in stream order. -/
structure Track where
  seg : Nat := 0                      -- number of the segment on its core
  timed : Bool := false
  /-- address of the next descriptor to check, or none when the stream order has ended. -/
  pos : Option Nat := none
  top : Nat := 0                      -- frame base at top level
  loops : List Loop := []             -- innermost first
  overrun : Bool := false             -- an inner loop's end has passed its parent iteration's end (R50)
  prevTick : Nat := 0                 -- issue tick of the previous descriptor
  tickEngs : List Nat := []           -- engine codes already checked for that tick
  checkedCount : Nat := 0             -- descriptors that passed their check since the start tick (R76)
  fetch : Fetch := {}
  /-- the descriptor at `pos` has raised its hold request, or made its break, already (R97). -/
  requested : Bool := false
  /-- the TAG of the descriptor at `pos` goes to STR_SLIP_TAG once it is decoded (R54). -/
  slipPending : Bool := false
deriving DecidableEq, Repr

/-- The stream of one core (R29, R51, R68). -/
structure Stream where
  st : StreamSt := .idle
  /-- the current or last segment. -/
  tr : Track := {}
  /-- the segment that a redirect replaces, from S − 32 until S (R70). -/
  old : Option Track := none
  segStart : Nat := 0
  startDue : Option Nat := none       -- a start tick whose effects (R62, R70, R83) have not come yet
  checked : List Checked := []
  lastIssue : Nat := 0                -- PTC of the latest issue of the segment
  issued : Nat := 0                   -- STR_ISSUED
  depthAtIssue : Nat := 0             -- STR_STATE.LOOP_DEPTH
  launch : Option Launch := none
  nextFetch : Fetch := {}             -- fetch of the launch's first chart
  /-- the counter and value a WAIT of an untimed segment waits for (R270). -/
  waiting : Option (Nat × Int) := none
  /-- STEP and PTC at an END whose segment has not been found drained yet (R72, R110). -/
  ended : Option (DWord × DWord) := none
deriving DecidableEq, Repr

/-! ## Cores -/

/-- A region slot (R55). -/
structure Region where
  base : Nat := 0
  length : Nat := 0
  fmt : Nat := 0
deriving DecidableEq, Repr

/-- A row counter signal carried by a transfer (R184, R264). -/
structure Sig where
  op : Nat
  ctr : Nat
  value : Word
deriving DecidableEq, Repr

/-- What an issued operation still has to do. -/
inductive Work where
  /-- a fixed-latency operation: complete so many ticks after its issue (R179). -/
  | fixed (dur : Nat)
  /-- beats still to land in the skein or to enter the FIFO. -/
  | landing (left : Nat)
  /-- beats that leave the core for HBM, one per tick (R235); none while the page list says how many. -/
  | sending (beats : Option Nat)
  /-- a RANK transfer: once the port is granted, the rank table entry and the beats that have left, and whether it waits for a packet
  buffer for its next packet (R310). -/
  | rank (grant : Option (List Word × Nat)) (waits : Bool)
  /-- a write to host memory: the beats that have left and have not failed, by number. -/
  | hostOut (beats : FMap (List Byte))
  /-- an EXPAND: the wall tick of its completion, once its last output beat is written (R215). -/
  | expand (doneAt : Option Nat)
deriving DecidableEq, Repr

/-- One access at an engine port: its place in the order of R227, its place among the operation's beats, and its byte offset. -/
structure Access where
  order : Nat
  write : Bool
  /-- for a read 2^24 times its operand field plus its number there, for a write its number in the output. -/
  slot : Nat
  beat : Nat
deriving DecidableEq, Repr

/-- A plane set's tag and data (R152): the group's planes as stored rows, plane by plane, 512 scale bytes, and the parity bits of the
four quarters of each stored row (R173). -/
structure PlaneSet where
  fmt : Nat
  g : Nat
  group : Nat
  planes : List Byte
  scales : List Byte
  parity : List (BitVec 4) := []
deriving DecidableEq, Repr

/-- A block accumulator: value, exponent X_b and residue (R154, R172). -/
structure Acc where
  acc : Int := 0
  x : Nat := 0
  rho : Nat := 0
deriving DecidableEq, Repr

/-- The accumulator bank (R154, R155). Accumulator (r, b, n) is at key 512 r + 128 b + n, L (r, n) at 128 r + n. -/
structure Bank where
  isOpen : Bool := false
  q : Int := 0
  accs : FMap Acc := []
  ls : FMap Int := []
deriving DecidableEq, Repr

/-- An issued descriptor (R58 to R60). `done` is the wall tick of its completion. -/
structure Op where
  id : Nat
  desc : Desc
  eff : List Nat
  eng : Nat
  tag : Nat
  tick : Nat
  timed : Bool
  slots : List (Nat × Nat)            -- region slot, USE
  varLat : Bool
  cause : Nat                         -- hold cause of a consumer that finds it late (R54)
  work : Work
  /-- ticks that it has run since its issue (R500, R179); for an EXPAND the number of its next output beat (R215). -/
  age : Nat := 0
  /-- the beats that it has read, by the place of the read. -/
  seen : FMap (List Byte) := []
  step : Word := 0                    -- STEP at the issue (R138)
  index : Nat := 0                    -- k of R138
  /-- the plane set and the bank with which a MULTIPLY starts (R152, R155). -/
  set : Option PlaneSet := none
  bank : Bank := {}
  /-- accesses of an earlier tick that lost their bank and have still to be made (R226, R227). -/
  again : List Access := []
  frozen : Bool := false              -- its engine was frozen in the latest tick (R169, R227)
  sig : Option Sig := none
  input : Bool := false               -- FLAGS.INPUT
  digestData : Mem := []              -- the bytes that an INPUT transfer has written, by byte index
  digestDone : Bool := false
  hostWin : Bool := false             -- holds a host-access window (R371)
  feedNext : Nat := 0                 -- FEED: beats that have entered the FIFO; EXPAND: beats taken from it; beats that have left the core
  fromStash : Bool := false
  done : Option Nat := none
deriving DecidableEq, Repr

/-- A beat in the decompressor's input FIFO (R186): whether it came from the stash, and the wall tick in which it entered. -/
structure FifoBeat where
  bytes : List Byte
  stash : Bool
  entered : Nat
deriving DecidableEq, Repr

/-- The times until which the stitch array's datapaths and sets are occupied, in PTC (R166). -/
structure SaTimes where
  fill : Nat := 0
  array : Nat := 0
  drain : Nat := 0
  load0 : Nat := 0
  load1 : Nat := 0
  mul0 : Nat := 0
  mul1 : Nat := 0
deriving DecidableEq, Repr

/-- A returned beat that waits for the landing port (R228). -/
structure RetBeat where
  addr : Nat
  bytes : List Byte
  ready : Nat                          -- wall tick
  planned : Bool
  order : Nat                          -- issue order of its transfer
  op : Option Nat                      -- the op of this core that it belongs to
  beat : Nat
  fifo : Bool := false                 -- goes to the decompressor's FIFO (R186)
  sig : Option (Sig × Nat × Word) := none   -- signal of a landed packet: signal, kind, signaller
  link : Option Nat := none            -- the link whose receive buffer holds its packet; the frame of a granule is free when its last beat lands
deriving DecidableEq, Repr

/-- A beat on the panel fabric (R26): the PTC value at which it reaches the destination's output. -/
structure Landing where
  ptc : Nat
  port : Nat
  addr : Nat
  bytes : List Byte
  sig : Option Sig
  src : Word := 0                      -- the issuing core as a signaller
deriving DecidableEq, Repr

/-- A beat at a die-to-die interface (R27): the interface and its direction, the port index there (R102), the destination core, and the
landing that it becomes. -/
structure Crossing where
  iface : Nat
  port : Nat
  core : Nat
  landing : Landing
deriving DecidableEq, Repr

/-- A row counter with its latest signaller (R263, R288). -/
structure RowCtr where
  value : Word := 0
  kind : Nat := 0
  src : Word := 0
deriving DecidableEq, Repr

/-- A row counter operation of this tick, applied at its end in the order of R267: its place there, its counter as named on core `core`,
OP (0 = ADD, 1 = SUB, 2 = SET), VALUE, and the signaller (R288). -/
structure RowOp where
  order : Nat
  core : Nat
  ctr : Nat
  op : Nat
  value : Word
  kind : Nat
  src : Word
deriving DecidableEq, Repr

/-- One core: its stream, scoreboard, tag slots, engines and landing port. -/
structure Core where
  step : DWord := 0
  stream : Stream := {}
  regions : FMap Region := []
  tags : FMap (Option (Nat × Nat)) := []     -- slot to (tag, op id)
  inflight : List Op := []
  nextOp : Nat := 0
  engFree : FMap Nat := []                   -- engine code to the PTC at which its datapath is free
  port : List (Nat × Nat × Nat) := []        -- injection port: engine code, first PTC, end PTC (R180)
  set0 : Option PlaneSet := none
  set1 : Option PlaneSet := none
  bank : Bank := {}
  drainBuf : FMap Int := []
  sa : SaTimes := {}
  fifo : List FifoBeat := []                 -- decompressor input FIFO (R186)
  ret : List RetBeat := []
  zeroQ : List RetBeat := []                 -- zero beats of PAGED_RD that have not entered the return buffer (R185)
  extHeld : Nat := 0                         -- beats of the external part promised to packets that still come in (R228)
  hostQ : List RetBeat := []                 -- HOST read data that waits for room in the return buffer (R228)
  landings : List Landing := []
  collBuf : List Landing := []
  landedAt : Nat := 0                        -- wall tick after the last landing
  wb : List (Nat × List Byte) := []          -- write-back queues: word address, corrected bytes
  scrubbed : Nat := 0                        -- the number of the latest beat that its scrubber has read, plus 1
  counters : FMap RowCtr := []
  digestH : List Byte := List.replicate 32 0
  digestN : Nat := 0
  istSlice : Nat := 0                        -- slices run since the load, mod 512 is the next (R474)
deriving DecidableEq, Repr

/-! ## Holds -/

/-- A hold request (R91, R97): cause, its source, the PTC value at which it was raised, and its late items with
whether each has arrived. -/
structure HoldReq where
  cause : Nat
  panel : Nat
  other : Bool                          -- SOURCE[15]
  unit : Nat
  raised : Nat
  seq : Nat                             -- wall tick
  items : List (LateItem × Bool)
deriving DecidableEq, Repr

/-- The current hold (R91 to R97). -/
structure Hold where
  reqs : List HoldReq
  freezeAt : Nat                        -- wall tick: 24 plan clock periods after the first request (R92)
  frozen : Bool := false
  time : DWord := 0
  ptc : DWord := 0
  ticks : Nat := 0
  broadcast : Option Nat := none        -- wall tick of the resume broadcast
  refreshUntil : Option Nat := none     -- wall tick at which a hold refresh ends
  finalDone : Bool := false
  watched : Bool := false
  refreshes : Nat := 0                  -- periodic refreshes issued
deriving DecidableEq, Repr

/-- The governor's account of one panel and window (R407, R408): charged units and payment. -/
structure Window where
  units : List Nat := []
  paid : Nat := 0
deriving DecidableEq, Repr

/-! ## HBM and stash -/

/-- What a granule request is for. -/
inductive GranuleKind where
  | read | write (bytes : List Byte) | fetch | feed
  /-- a host access through BAR4 (R258): the part of a waiting read that it answers and its bytes, or the bytes written. -/
  | hostRead (id n : Nat)
  | hostWrite (bytes : List Byte)
deriving DecidableEq, Repr

/-- A granule request at a controller (R235). -/
structure Granule where
  kind : GranuleKind
  core : Nat
  op : Nat
  order : Nat
  dev : Nat                             -- device address of its first byte moved
  beat : Nat                            -- index of its first beat in the transfer
  beats : Nat                           -- 1 to 4
  dst : Nat                             -- skein address of its first beat
  arrival : Nat                         -- wall tick
  port : Nat
deriving DecidableEq, Repr

/-- A host read through BAR4 that is not answered yet: its number, its bytes as far as they are read, and the granules still to read. -/
structure HostRead where
  id : Nat
  bytes : List Byte
  left : Nat
deriving DecidableEq, Repr

/-- One HBM stack's controller (R234 to R241). Wall ticks are stored plus 1; 0 means never. -/
structure HbmStack where
  queue : List Granule := []
  lastStart : FMap Nat := []
  bankStart : FMap Nat := []
  refreshUntil : Nat := 0
  windowUntil : Nat := 0
  windowFrom : Nat := 0
  slotUntil : Nat := 0
  scrubPos : FMap Nat := []             -- granules scrubbed per pseudo-channel
  freeSince : Nat := 0                  -- TIME of the entry into FREE
  freeRefs : Nat := 0
deriving DecidableEq, Repr

/-- A page read at a stash controller (R243). -/
structure StashReq where
  id : Nat
  core : Nat
  op : Nat
  order : Nat
  page : Nat                            -- stash byte address
  beat : Nat
  dst : Nat
  feed : Bool
  arrival : Nat
  decoded : Option Nat := none          -- wall tick of its decoding
  bytes : List Byte := []
  remote : Bool
deriving DecidableEq, Repr

/-- The running stash command (R245). -/
structure StsCmd where
  op : Nat
  saddr : Nat
  haddr : Nat
  pages : Nat
deriving DecidableEq, Repr

/-- One stash stack (R242 to R249). -/
structure Stash where
  reqs : List StashReq := []
  nextReq : Nat := 0
  lastDeliver : Nat := 0                -- TIME plus 1 of the latest delivery start
  cmd : Option StsCmd := none
  programmed : FMap Bool := []          -- page index to whether it is programmed
  wear : FMap Nat := []                 -- physical block to program-erase count
  scrubbed : FMap Nat := []             -- logical block to the TIME of its latest scrub
  reads : FMap Nat := []                -- page reads since then
  physical : FMap Nat := []             -- logical block to physical block plus 1; unlisted: the same number
  nextSpare : Nat := 8192               -- physical blocks from here on have never been used
  freed : List Nat := []                -- spare physical blocks that have been used
  bbSeq : Nat := 0
  bbLast : Nat := 0
  bbValid : List Nat := []              -- slots with a valid copy
deriving DecidableEq, Repr

/-! ## Cast-on -/

/-- CAST_NODEn_CFG.STATE (R276). -/
inductive NodeSt where
  | disabled | idle | collecting | sent | released | failed
deriving DecidableEq, Repr

/-- A barrier node (R274 to R284). -/
structure Node where
  st : NodeSt := .disabled
  arrivals : List (Nat × CastSrc) := []    -- slot and the path of its arrival; the local arrival is not listed
  localSlot : Option Nat := none           -- holds the package's local arrival, at this slot
  timer : Nat := 0                         -- TIME of the first arrival
  noticed : Bool := false                  -- has forwarded a notice
deriving DecidableEq, Repr

/-- A cast-on packet between two nodes of this package, on its way (R276, R278). -/
inductive CastMsg where
  | arrive (src node slot : Nat)
  | release (src node remaining : Nat) (base : DWord)
  | abort (src node : Nat)
  | notice (src : Nat) (b : NoticeBody)
deriving DecidableEq, Repr

/-- A release that waits for its tick at this package (R278, R280). -/
structure PendingRelease where
  due : Nat                                -- wall tick
  base : DWord
  node : Nat
deriving DecidableEq, Repr

/-- CAST_STATE.STATE (R289). -/
inductive CastSt where
  | idle | arrived | released | failed
deriving DecidableEq, Repr

/-- A bind-off in progress (R285): the TIME from which the quiet time runs once step 1 has ended. -/
structure BindOff where
  lot : Nat
  quietFrom : Option Nat := none
deriving DecidableEq, Repr

/-! ## Ply links -/

/-- PLY_LINK_STATE.STATE (R302). -/
inductive LinkSt where
  | disabled | training | ident | gauging | up | retrain | failed
deriving DecidableEq, Repr

/-- A frame that a class has sent and keeps until it is acknowledged (R298). -/
structure TxFrame where
  seq : Nat
  sop : Bool
  eop : Bool
  valid : Nat
  payload : List Byte
deriving DecidableEq, Repr

/-- A frame in a receive buffer that nothing has taken yet (R296): its VALID bytes. -/
structure RxFrame where
  sop : Bool
  eop : Bool
  rpl : Bool
  bytes : List Byte
deriving DecidableEq, Repr

/-- Where the frames of the data packet go that a link is receiving (R315, R317). -/
inductive PktRoute where
  /-- the packet is dropped. -/
  | drop
  /-- it goes out on a link, while it still comes in. -/
  | out (link : Nat)
  /-- it lands in a core: granules to come, the next beat offset, bytes of a granule that is not whole, the signal and its source. -/
  | core (k left dbeat : Nat) (part : List Byte) (sig : Option Sig) (src : Word)
deriving DecidableEq, Repr

/-- One class of a link direction pair (R294, R296 to R298). -/
structure LinkClass where
  nextSeq : Nat := 0
  unacked : List TxFrame := []
  replay : List TxFrame := []              -- frames still to be resent
  expected : Nat := 0
  ackDue : Bool := false                   -- the acknowledgement changed since it was last sent
  again : Bool := false                    -- a duplicate came: the next frame acknowledges the class again (R296)
  seen : Bool := false                     -- a frame has been accepted
  rx : List RxFrame := []                  -- frames in the receive buffer that nothing has taken, oldest first
  nakDue : Bool := false
  nakGap : Bool := false                   -- a NAK was asked for the present gap
  used : Nat := 0                          -- receive buffer frames in use, those taken and not yet gone included
  xoff : Bool := false                     -- this end asks its peer to stop
  timer : Nat := 0                         -- TIME of the latest advance
deriving DecidableEq, Repr

/-- A frame as it leaves (R293). -/
structure SentFrame where
  cls : Nat
  seq : Nat
  rpl : Bool
  sop : Bool
  eop : Bool
  valid : Nat
  ackClass : Nat
  ack : Nat
  nak : Bool
  xoff : Nat
  payload : List Byte
deriving DecidableEq, Repr

/-- A control packet queued for a link: its bytes, the wall tick from which it can leave, the remaining time in 1/16 pt of
a release (R308), and whether it waited across a retrain (R293). -/
structure TxCtl where
  lot : Nat
  bytes : List Byte
  due : Nat
  release : Option Nat := none
  old : Bool := false
deriving DecidableEq, Repr

/-- A data packet queued for a link: its port index (R318), lot and frames still to send, first first. -/
structure TxData where
  port : Nat
  lot : Nat
  panelBuf : Option Nat                    -- the panel whose packet buffer it holds
  from_ : Option Nat                       -- the input link whose receive buffer it holds
  started : Bool
  due : Nat                                -- wall tick from which its first frame can leave (R317)
  old : Bool := false                      -- waited across a retrain (R293)
  frames : List TxFrame
  more : Bool := false                     -- the rest of the packet is still coming in (R317)
deriving DecidableEq, Repr

/-- One end of a ply link (R302 to R306). -/
structure Link where
  st : LinkSt := .disabled
  trained : Bool := false                  -- inside RETRAIN: training is done
  matched : Bool := false                  -- inside RETRAIN: the identities matched, and the gauge is measured
  since : Nat := 0                         -- TIME of the entry into the present state
  slot : Nat := 0                          -- frame slot number (R295)
  data : LinkClass := {}
  vl0 : LinkClass := {}
  vl1 : LinkClass := {}
  badRun : Nat := 0
  rot : Nat := 0                           -- rotation of ACK_CLASS (R297)
  dataQ : List TxData := []
  ctl0 : List TxCtl := []
  ctl1 : List TxCtl := []
  sent : Option SentFrame := none          -- the frame of the latest slot
  identOut : DWord := 0                    -- the identity that this end has sent (R303)
  into : Option PktRoute := none           -- where the data packet that comes in goes
  paced : List Nat := []                   -- slots of the latest data frames of a paced link (R301)
deriving DecidableEq, Repr

/-! ## Serving -/

/-- A key/value pool (R325, R342). -/
structure Pool where
  addr : Nat := 0
  pages : Nat := 0
  free : List Nat := []
  reserved : Nat := 0
deriving DecidableEq, Repr

/-- An entry of the forecasting model table (R355). -/
structure Model where
  chart : Nat
  stride : Nat
  cores : Nat
  maxSeries : Nat
  inBytes : Nat
  outBytes : Nat
  weights : Nat
deriving DecidableEq, Repr

/-- The serving parameters (R325). -/
structure SrvParams where
  forecasting : Bool
  slots : Nat
  prefillTok : Nat
  tpp : Nat
  pps : Nat
  vocab : Nat
  eos : Nat
  kMax : Nat
  draftMax : Nat
  prefillRate : Nat
  baseId : Nat
  slotTable : Nat
  stepRecords : Nat
  motifTable : Nat
  promptArea : Nat
  promptSize : Nat
  stepCharts : List Nat
  models : List Model
  requestTable : Nat
  fcIn : Nat
  fcInLen : Nat
  fcOut : Nat
  fcOutLen : Nat
deriving DecidableEq, Repr

/-- A completion that waits for its ring (R333): `flags` without PHASE; `ctx` is the context that its posting frees. -/
structure Compl where
  cid : Nat
  status : Nat
  flags : Nat := 0
  sqhd : Nat
  tokens : Nat := 0
  result : Nat := 0
  ttft : Nat := 0
  maxGap : Nat := 0
  ctx : Option Nat := none
deriving DecidableEq, Repr

/-- A queue pair (R328 to R330, R332). Its function is the owner of its number (R327). -/
structure Qp where
  error : Bool := false
  /-- being deleted: the completion (queue pair, CID, SQHD) that follows, if any (R351). -/
  deleting : Option (Option (Nat × Nat × Nat)) := none
  s : Nat
  c : Nat
  sq : Nat
  cq : Nat
  sqHead : Nat := 0
  sqTail : Nat := 0
  cqHead : Nat := 0                        -- consumed by the host
  cqTail : Nat := 0
  phase : Bool := true
  ttft : Nat := 0
  tbt : Nat := 0
  maxOut : Nat := 65535
  draftMax : Nat := 0
  ien : Bool := true
  refuseLate : Bool := false
  streamEvery : Nat := 0
  irqSent : Bool := false
  tSubmit : List Nat := []                 -- TIME of submission of each entry not yet taken
  ready : List Compl := []                 -- completions that wait for room
deriving DecidableEq, Repr

/-- Context STATE (R336). -/
inductive CtxSt where
  | queued | prefill | decode | ending
deriving DecidableEq, Repr

/-- A request context (R336). -/
structure Ctx where
  st : CtxSt
  lateFirst : Bool := false
  lateGap : Bool := false
  isForecast : Bool := false
  draft : Nat
  qp : Nat
  cid : Nat
  motif : Nat
  prefixH : Nat
  pool : Nat
  ptPage : Nat
  shared : Nat
  promptTotal : Nat
  committed : Nat
  inToken : Nat
  maxNew : Nat
  tokens : Nat
  reserved : Nat
  temp : Nat
  topk : Nat
  topp : Nat
  strm : Nat
  out : Nat
  tSubmit : Nat
  tFirst : Nat
  tLast : Nat
  deadline : Option Nat
  maxGap : Nat
  promptAddr : Nat
  promptLen : Nat
  pages : List (Nat × Nat) := []           -- entry of the page table (PPS s + j), private pool page
  isPrefix : Option Nat := none            -- the context prefills this prefix slot
  sqhd : Nat                               -- submission ring head after its entry
  serial : Nat := 0                        -- sets it apart from later requests in its context
  -- FORECAST
  model : Nat := 0
  series : Nat := 0
  inAddr : Nat := 0
  nextSeries : Nat := 0
  doneSeries : Nat := 0
deriving DecidableEq, Repr

/-- A prefix slot (R337, R338); `lost` once the job that held its pages has ended (R354). -/
structure Prefix where
  gen : Nat := 1
  registered : Bool := false
  ready : Bool := false
  lost : Bool := false
  fn : Nat := 0
  motif : Nat := 0
  len : Nat := 0
  sharedTokens : Nat := 0
  pool : Nat := 0
  pages : List (Nat × Nat) := []           -- entry of the page table, page
  tail : List Byte := []                   -- its tokens from SHARED on, which every request prefills again
deriving DecidableEq, Repr

/-- The pages of a released prefix, which return when the last context that uses the handle ends (R339). -/
structure Retired where
  handle : Nat
  pool : Nat
  pages : List Nat
deriving DecidableEq, Repr

/-- A motif slot (R340, R341); `releasing` holds the queue pair, CID and SQHD of the release that waits, if it gets a completion. -/
structure Motif where
  gen : Nat := 1
  registered : Bool := false
  fn : Nat := 0
  addr : Nat := 0
  releasing : Option (Option (Nat × Nat × Nat)) := none
deriving DecidableEq, Repr

/-- What the physical function assigned to a virtual function (R332, R365). -/
structure VfAssign where
  first : Nat := 0
  count : Nat := 0
  ctxQuota : Nat := 0
  prefixQuota : Nat := 0
  motifQuota : Nat := 0
deriving DecidableEq, Repr

/-- A forecasting batch on a panel (R356). -/
structure Batch where
  ctx : Nat
  serial : Nat
  model : Nat
  first : Nat
  count : Nat
deriving DecidableEq, Repr

/-- What waits for step 3 of R347: a CANCEL, a RIP_BACK (LENGTH, NEXT_TOKEN), or the end of a queue pair's requests, with
completions or without (R330, R351, R367). -/
inductive TakenAct where
  | cancel (target : Nat)
  | ripBack (target length next : Nat)
  | endAll (victim : Nat) (silent : Bool)
deriving DecidableEq, Repr

/-- A taken command with the queue pair, CID and SQHD of its completion. -/
structure TakenCmd where
  qp : Nat
  cid : Nat
  sqhd : Nat
  act : TakenAct
deriving DecidableEq, Repr

/-- SRV_STATE.STATE (R326). -/
inductive SrvSt where
  | none | ready | stopped
deriving DecidableEq, Repr

/-- A filled slot of the running step (R345): context, K, and CHUNK_LEN for a prefill chunk. -/
structure SlotUse where
  ctx : Nat
  k : Nat
  chunk : Option Nat
deriving DecidableEq, Repr

/-- The serving scheduler's state. -/
structure Srv where
  st : SrvSt := .none
  params : Option SrvParams := none
  qps : FMap (Option Qp) := []
  badQps : List Nat := []                  -- numbers of no queue pair that are in ERROR (R330)
  ctxs : FMap (Option Ctx) := []
  pools : FMap Pool := []
  prefixes : FMap Prefix := []
  retired : List Retired := []
  motifs : FMap Motif := []
  vfs : FMap VfAssign := []
  taken : List TakenCmd := []
  visit : Nat × Nat := (0, 0)              -- the queue pair visited and the entries taken on this visit (R331)
  batches : FMap (Option Batch) := []      -- by panel
  slots : List (Option SlotUse) := []      -- of the running step
  stepRunning : Bool := false
  drainOrder : List (Nat × Nat) := []      -- idle panels with the wall tick at which each drained (R356)
  unread : Nat := 0                        -- doorbell writes that firmware has not read (R383)
  flrWaits : Bool := false                 -- a function level reset that firmware has not seen (R383)
  picks : Nat := 0                         -- free choices made so far: the model's own counter
deriving DecidableEq, Repr

/-! ## Host side, interrupts -/

/-- The interrupt side of a function (R377, R378). -/
structure Fn where
  msixEnable : Bool := false
  funcMask : Bool := false
  pba : Bool := false
  d3hot : Bool := false
  bme : Bool := false
  vfEnable : Bool := false                 -- VF Enable of the SR-IOV capability; PF only
  condition : Bool := false
  latch : Option (Nat × Word) := none      -- address of the latched _HI half and its value (R363)
  cfg : FMap Word := []                    -- stored bits of configuration space, by dword address
deriving DecidableEq, Repr

/-- A source of a panel interrupt controller (R384, R385). -/
structure IcuSrc where
  en : Bool := false
  sense : Nat := 0
  prio : Nat := 0
  hart : Nat := 0
  input : Bool := false
  active : Bool := false
  edge : Bool := false
  edgeAt : Nat := 0                        -- wall tick plus 1 of the latest event (R388)
  count : Nat := 0
  cntWas : Nat := 0                        -- the count before the events of that tick, and how many those are (R11)
  cntNew : Nat := 0
deriving DecidableEq, Repr

/-- A panel interrupt controller: sources, the four priority stacks (top first), and the TIME at which each
group's hold-off ends with the source that started it (R385 to R387). -/
structure Icu where
  srcs : FMap IcuSrc := []
  prioStacks : FMap (List (Nat × Nat)) := []
  holdoff : FMap (Option Nat) := []
deriving DecidableEq, Repr

/-! ## Power, thermal, die-to-die -/

/-- The lifecycle of a power domain (R403, R404). `pendOff` is EN = 0 written in STARTING. -/
inductive DomSt where
  | off | starting | on | stopping
deriving DecidableEq, Repr

/-- A power domain. -/
structure Dom where
  st : DomSt
  pendOn : Bool := false
  pendOff : Bool := false
deriving DecidableEq, Repr

/-- A panel's thermal monitor (R411 to R414). Duties are 0 when that reason does not throttle. -/
structure Thm where
  reading : Int := 0                       -- 0.125 degrees Celsius
  dutyT : Nat := 0
  dutyP : Nat := 0
  entry : Nat := 0                         -- TIME of the entry into THROTTLE
  frames : Nat := 0                        -- frames started
  updates : Nat := 0                       -- DUTY updates made
  withdrawAt : Option Nat := none          -- TIME of the withdrawal of the frame's request that is up
  crit : Bool := false                     -- the latest reading was 105 degrees or more
deriving DecidableEq, Repr

/-- The receiving side of a die-to-die interface (R18, R396). -/
structure D2d where
  locked : Bool := false
  repaired : Nat := 0
  fails : Nat := 0                         -- CRC failures of the unit whose retry is outstanding
deriving DecidableEq, Repr

/-! ## Faults, recorders, management -/

/-- A trigger of an event recorder (R467, R468): bit, BLK_ID.TYPE, bit of the block and its INSTANCE, TIME and PTC. -/
structure Trig where
  time : DWord
  ptc : DWord
  bit : Nat
  typ : Nat
  blkBit : Nat
  inst : Nat
  merged : Nat                             -- triggers missed since the record before (R469)
deriving DecidableEq, Repr

/-- An event recorder (R467 to R471). -/
structure Evr where
  head : Nat := 0
  ring : FMap (List Byte) := []
  frozen : Bool := false
  merged : Nat := 0                        -- triggers missed since the latest record began
  pending : Option Trig := none            -- the trigger whose record is being taken
deriving DecidableEq, Repr

/-- A message that the package sends outside its links: an interrupt message, a platform event, a management
answer, an in-package hart interrupt pulse. -/
inductive Msg where
  | msix (fn : Nat)
  | platformEvent (eid sensor : Nat)
  | answer (b : MctpBinding) (bytes : List Byte)
  | spdm (via : SpdmPath) (bytes : List Byte)
  | fwMsg (src : Nat) (body : List Byte)   -- a FW_MSG delivered to the control complexes (R316)
deriving DecidableEq, Repr

/-- Management state (R477 to R486). -/
structure Mgmt where
  bus : Nat := 0                           -- 0 none, 1 I3C, 2 SMBus
  i3cAddr : Nat := 0
  eid : Nat := 0
  receiver : Option (MctpBinding × Nat) := none
  readyAt : Option Nat := none             -- TIME of READY
  transcript : List Byte := []             -- SPDM messages since GET_VERSION
  signed : Option (List Byte) := none      -- transcript hash of the latest signature
deriving DecidableEq, Repr

/-- BOOT_STAGE.STAGE (R421). -/
inductive Stage where
  | rom | hostWait | fwStart | ready | failed
deriving DecidableEq, Repr

/-- Boot and load state (R421 to R447). -/
structure Boot where
  stage : Stage := .rom
  code : Nat := 0
  source : Nat := 0
  svn : Nat := 0
  version : Nat := 0
  image : List Byte := []                  -- the running firmware's signed data
  loading : Bool := false                  -- a LOAD_BEGIN was accepted since the last LOAD_DONE or bind-off
  loaded : Bool := false
  err : Nat := 0
  topoErr : Nat := 0
  topoEntry : Nat := 0
  patternDigest : List Byte := []
  weightDigest : List Byte := []
  swatches : List (Nat × Nat × Nat × Nat) := []   -- virtual core, buffer address, length, record address (R437)
  startPending : Bool := false
deriving DecidableEq, Repr

/-- A window of the in-service test that runs on a core (R474): its first tick, its length, and the slice of it whose signature will not
match, if one will not. -/
structure IstWin where
  start : Nat
  len : Nat
  bad : Option Nat
deriving DecidableEq, Repr

/-- A black-box copy that runs (R249, R472): the panel of its stack, its slot, its TIME, and the records. -/
structure BoxCopy where
  panel : Nat
  slot : Nat
  time : Nat
  records : List Byte
deriving DecidableEq, Repr

/-- The FLT block's own state (R460 to R466, R473). -/
structure Flt where
  stopped : Bool := false
  hwStop : Bool := false
  bbBusy : Bool := false
  first : Option Word := none              -- FLT_FIRST
  firstAt : Nat := 0                       -- wall tick of the recorded request
  firstPtc : DWord := 0
  firstTime : DWord := 0
  reqSince : Option Nat := none            -- TIME at which the present stop request was raised
  needBind : Bool := false                 -- a stream was ARMED or RUNNING at the stop (R466 step 3)
  copied : Bool := false                   -- a black-box copy was started since the last CLEAR
  noticeSrc : Option Word := none
  istTable : FMap (List Word) := []
  istRuns : FMap Nat := []                 -- windows run of each entry
  istOpen : FMap (List IstWin) := []       -- per core: its windows that have not ended
  box : List BoxCopy := []                 -- black-box copies in progress
  jobBase : DWord := 0                     -- PTC value of the latest release
deriving DecidableEq, Repr

/-- The levels on the pins and the supplies. `perst` is true while PERST_N is asserted. -/
structure Pins where
  perst : Bool := false
  thermtrip : Bool := false
  badRails : List Rail := []
  straps : Straps := { hostBoot := false, mgmtAddr := 0, test := false }
  spoiled : Bool := false                  -- a rail has left its range since PERST_N was last asserted (R494)
  scan : Option Nat := none                -- the levels that boundary scan drives at the outputs (R489)
  vcore : FMap Nat := []                   -- per panel: the VCORE setpoint in mV; unlisted: the boot value 750 (R492)
deriving DecidableEq, Repr

/-- The clocks (R390 to R401). -/
structure Clk where
  set : Nat := 0                           -- setting in force: PLAN_ACTIVE
  switching : Option Nat := none           -- TIME at which a change began
  pllLock : Bool := true
  holdover : Option Nat := none            -- TIME of the SYSREF loss
  free : Bool := false                     -- the PLLs run free
  refclkOk : Bool := true
  sysrefOk : Bool := true
  frac : Nat := 0                          -- fifteenths of a nanosecond since TIME last advanced
  slewLeft : Int := 0
  slewAt : Nat := 0                        -- nanoseconds elapsed since the SLEW write
  slewOwed : Nat := 0                      -- last nanoseconds of a block that SLEW_ADJUST has still to apply
  stepTo : Option DWord := none            -- value that TIME takes in the next nanosecond (R399)
deriving DecidableEq, Repr

/-- What the latest read by the host returned. -/
structure Reply where
  value : DWord := 0
  bytes : List Byte := []
deriving DecidableEq, Repr

/-! ## The package -/

/-- One NK8 package. Maps of cores have key 288 p + c, of panels p, of HBM stacks 3 p + s, of power domains
12 p + i, of die-to-die entries 3 p + i, of shared counters 4096 p + n. -/
structure State where
  pending : List Instr                     -- the commands that wait, first in first out
  fuses : Fuses
  wall : Nat                               -- plan clock periods since reset
  ptc : DWord
  time : DWord
  clk : Clk
  pins : Pins
  regs : FMap Word                         -- BAR0 byte offset of the register
  cnt : FMap Nat                           -- generic counters (R373) at block base + index
  faultAt : FMap Nat                       -- wall tick plus 1 of the fault that the record at this BAR0 offset holds
  cores : FMap Core
  shared : FMap RowCtr
  skein : Mem                              -- 2^22 (288 p + c) + offset
  hbm : Mem                                -- device address
  stashMem : Mem                           -- stash address
  sram : Mem                               -- 2^21 p + offset
  hostMem : Mem                            -- 2^64 function + address, as the function sees it
  bootMem : Mem                            -- 2^21 slot + offset
  bbMem : Mem                              -- 2^25 stack + slot and offset
  hold : Option Hold
  nextHold : Option Hold                   -- a hold whose first request came after the broadcast of `hold` (R96)
  holdSeq : Nat                            -- HOLD_LOG_HEAD.SEQ
  holdLog : FMap (List Word)
  windows : FMap Window                    -- governor: 8 window + panel
  level : Nat                              -- PWR_LEVEL.LEVEL as latched
  hbmStacks : FMap HbmStack
  hostReads : List HostRead                -- reads through BAR4 that wait for their granules
  stashes : FMap Stash
  scrubPos : FMap Nat                      -- per panel, beats that its scrubbers have gone past (R230)
  scrubFrom : FMap Nat                     -- per panel, the wall tick from which the present one counts
  nodes : FMap Node
  castMsgs : List (Nat × CastMsg)          -- wall tick of arrival
  castSt : CastSt
  castDeferred : Bool
  jobLive : Bool                           -- a job runs: from its release to the completion of the next bind-off (R108)
  castRelease : Option PendingRelease
  bind : Option BindOff
  links : FMap Link
  niBufs : FMap Nat                        -- packet buffers in use, per panel
  rankTables : FMap (List Word)            -- 8192 kind + index, four words
  niOwn : FMap Word                        -- NI BLK_ERR bits raised for the job's own lot, per panel
  srv : Srv
  fns : FMap Fn                            -- 0 = PF, v = VF
  hostWaits : List (Nat × Nat × Nat)       -- wall tick of the request, core and number of each descriptor that waits for a window
  rowSets : List (Nat × Nat × Nat × Word)  -- writes of ROW_VALUE: wall tick, core key, counter, value, applied in the next tick (R272)
  rowOps : List RowOp                      -- row counter operations of this tick (R267)
  crossings : List Crossing                -- beats that have come to die-to-die interfaces in this tick
  d2dBuf : FMap (List Crossing)            -- the collision buffers of the interfaces, each direction its own (R103)
  landed : List (Nat × List Byte)          -- the landing ports' writes of this tick: skein address, bytes before it (R225)
  setNow : FMap Word                       -- W1C bits set in this tick, by BAR0 offset (R11)
  incNow : FMap (Nat × Nat)                -- RC counts of this tick, by BAR0 offset: the count before them, and how many (R11)
  numWas : FMap Word                       -- per panel: NUM_CTRL before the writes of this tick (R145)
  skErr : FMap Nat                         -- stored errors: skein word address / 8 to 1 = single-bit, 2 = double-bit (R229)
  hostGrants : List (Nat × Nat × Nat)      -- core and number of a descriptor granted and not yet issued, wall tick of the grant
  icus : FMap Icu
  doms : FMap Dom
  thms : FMap Thm
  d2ds : FMap D2d
  boot : Boot
  flt : Flt
  evrs : FMap Evr                          -- panel, or 8 for the package recorder
  harts : FMap Nat                         -- 4 p + h: 0 reset, 1 running, 3 halted (R455)
  ccKick : FMap Nat                        -- per panel: TIME of the latest KICK or MS write
  mgmt : Mgmt
  sent : List Msg                          -- latest first
  reply : Reply
deriving DecidableEq, Repr

/-! ## How a step stops -/

/-- Why the machine stops. -/
inductive Fault where
  /-- Raised by every command from the moment a supply rail leaves its range with PERST_N deasserted until PERST_N is
  asserted: "the NK8 gives no guarantee for any result, record or register" (R494). Safe: nothing follows from it. -/
  | supplyNoGuarantee
deriving DecidableEq, Repr

/-- Why a command has no meaning here. -/
inductive Refusal where
  /-- Raised by an arm of `exec` whose meaning is not written yet. Safe. -/
  | notModelled (mnemonic : String)
deriving DecidableEq, Repr

/-- The package right after PERST_N deassertion (R420): every block at its reset state, stage ROM. -/
def State.reset : State where
  pending := []
  fuses := {}
  wall := 0
  ptc := 0
  time := 0
  clk := {}
  pins := {}
  regs := []
  cnt := []
  faultAt := []
  cores := []
  shared := []
  skein := []
  hbm := []
  stashMem := []
  sram := []
  hostMem := []
  bootMem := []
  bbMem := []
  hold := none
  nextHold := none
  holdSeq := 0
  holdLog := []
  windows := []
  level := 8
  hbmStacks := []
  hostReads := []
  stashes := []
  scrubPos := []
  scrubFrom := []
  nodes := []
  castMsgs := []
  castSt := .idle
  castDeferred := false
  jobLive := false
  castRelease := none
  bind := none
  links := []
  niBufs := []
  rankTables := []
  niOwn := []
  srv := {}
  fns := []
  hostWaits := []
  rowSets := []
  rowOps := []
  crossings := []
  d2dBuf := []
  landed := []
  setNow := []
  incNow := []
  numWas := []
  skErr := []
  hostGrants := []
  icus := []
  doms := []
  thms := []
  d2ds := []
  boot := {}
  flt := {}
  evrs := []
  harts := []
  ccKick := []
  mgmt := {}
  sent := []
  reply := {}

end Sys2Proof.Machine
end

