-- ==== Sys2Proof/Machine/Map.lean ====
section
/-! DEFINITION. The operations on sparse maps and byte memories, and the bit and byte helpers the rest uses.
A map keeps its keys strictly rising and lists no entry equal to the default, so equal maps are equal lists. -/

namespace Sys2Proof

variable {α : Type}

/-- The value at a key; `d` where nothing is listed. -/
def FMap.look (d : α) : FMap α → Nat → α
  | [], _ => d
  | (j, w) :: m, k => if j = k then w else FMap.look d m k

/-- Put an entry in its place. -/
def FMap.place : FMap α → Nat → α → FMap α
  | [], k, v => [(k, v)]
  | (j, w) :: m, k, v =>
    if j = k then (k, v) :: m else if k < j then (k, v) :: (j, w) :: m else (j, w) :: FMap.place m k v

/-- Write a value; the entry is dropped when the value is the default. -/
def FMap.put [DecidableEq α] (d : α) (m : FMap α) (k : Nat) (v : α) : FMap α :=
  if v = d then m.filter fun e => e.1 != k else FMap.place m k v

/-- All keys of the map are above `k` (or there is no bound), rising, and no value is the default. -/
def FMap.wfFrom [DecidableEq α] (d : α) : Option Nat → FMap α → Bool
  | _, [] => true
  | lo, (k, v) :: m =>
    (match lo with
      | none => true
      | some l => decide (l < k)) && decide (v ≠ d) && FMap.wfFrom d (some k) m

/-- The canonical form of a map. -/
def FMap.wf [DecidableEq α] (d : α) (m : FMap α) : Bool := FMap.wfFrom d none m

/-- An unlisted byte reads 0: an erased stash page (R242), a skein at power-on (R403); for HBM, SRAM and host
memory a DESIGN CHOICE (log entry 3, unsafe). -/
def Mem.dflt : Byte := 0

/-- Read one byte. -/
def Mem.byte (m : Mem) (a : Nat) : Byte := FMap.look Mem.dflt m a

/-- Write one byte. -/
def Mem.setByte (m : Mem) (a : Nat) (b : Byte) : Mem := FMap.put Mem.dflt m a b

/-- The canonical form of a memory. -/
def Mem.wf (m : Mem) : Bool := FMap.wf Mem.dflt m

/-- `n` bytes from address `a`. -/
def Mem.bytes (m : Mem) (a : Nat) : Nat → List Byte
  | 0 => []
  | n + 1 => Mem.byte m a :: Mem.bytes m (a + 1) n

/-- Write a byte list from address `a`. -/
def Mem.store (m : Mem) (a : Nat) : List Byte → Mem
  | [] => m
  | b :: bs => Mem.store (Mem.setByte m a b) (a + 1) bs

/-- Set `n` bytes from `a` to zero. -/
def Mem.zero (m : Mem) (a n : Nat) : Mem := Mem.store m a (List.replicate n 0)

/-- Remove every listed byte in [a, a + n): they read as unlisted again. -/
def Mem.forget (m : Mem) (a n : Nat) : Mem := m.filter fun e => decide (e.1 < a ∨ a + n ≤ e.1)

/-- Little-endian value of a byte list (R7). -/
def leNat : List Byte → Nat
  | [] => 0
  | b :: bs => b.toNat + 256 * leNat bs

/-- The `n` little-endian bytes of a value (R7). -/
def leBytes : (n : Nat) → Nat → List Byte
  | 0, _ => []
  | n + 1, v => BitVec.ofNat 8 v :: leBytes n (v / 256)

/-- The unsigned value of `n` bytes in memory. -/
def Mem.nat (m : Mem) (a n : Nat) : Nat := leNat (Mem.bytes m a n)

/-- Bits [lo + w - 1 : lo] of a number. -/
def bits (v lo w : Nat) : Nat := v / 2 ^ lo % 2 ^ w

/-- Bit k of a number. -/
def bitOf (v k : Nat) : Bool := v / 2 ^ k % 2 = 1

/-- 1 or 0. -/
def b2n (b : Bool) : Nat := if b then 1 else 0

/-- A number with bits [lo + w - 1 : lo] replaced. -/
def setBits (v lo w x : Nat) : Nat :=
  v - bits v lo w * 2 ^ lo + x % 2 ^ w * 2 ^ lo

/-- The signed value of a `w`-bit two's complement field. -/
def signed (w v : Nat) : Int := if 2 * (v % 2 ^ w) < 2 ^ w then ((v % 2 ^ w : Nat) : Int) else ((v % 2 ^ w : Nat) : Int) - ((2 ^ w : Nat) : Int)

/-- The low `w` bits of an integer, as an unsigned number. -/
def unsigned (w : Nat) (i : Int) : Nat := (i % ((2 ^ w : Nat) : Int)).toNat

/-- Quotient rounded up. -/
def ceilDiv (a b : Nat) : Nat := (a + b - 1) / b

/-- Add 1 to a 32-bit count that saturates. -/
def satInc (w : Word) (by_ : Nat := 1) : Word := BitVec.ofNat 32 (Nat.min (w.toNat + by_) 0xFFFFFFFF)

/-- The numbers of the set bits among bits 0 to n − 1, rising. -/
def setBitsOf (n v : Nat) : List Nat := (List.range n).filter (bitOf v)

/-- The first element with its smallest key. -/
def minOn? (f : α → Nat) : List α → Option α
  | [] => none
  | x :: xs =>
    match minOn? f xs with
    | none => some x
    | some y => if f y < f x then some y else some x

end Sys2Proof
end

