-- ==== Sys2Proof/Machine/Numbers.lean ====
section
/-! DEFINITION. The sixteen element formats, exact values, rounding and conversion (R116 to R122, R131 to R144),
packing of plane-form blocks (R123 to R127) and Twist-4 (R216, R217). -/

namespace Sys2Proof.Machine

/-! ## Exact values -/

/-- An exact value: NaN, an infinity, a signed zero, or the nonzero number m × 2^e. -/
inductive XVal where
  | nan
  | inf (neg : Bool)
  | zero (neg : Bool)
  | fin (m : Int) (e : Int)
deriving DecidableEq, Repr

/-- m × 2^e, which may be zero. -/
def XVal.ofDyadic (m e : Int) : XVal := if m = 0 then .zero false else .fin m e

/-- m × 2^k for k of any sign, rounded down when k is negative. -/
def scale2 (m : Int) (k : Int) : Int := if 0 ≤ k then m * 2 ^ k.toNat else m / 2 ^ (-k).toNat

/-- The sum of two dyadic numbers. -/
def addDyadic (a b : Int × Int) : Int × Int :=
  let e := min a.2 b.2
  (scale2 a.1 (a.2 - e) + scale2 b.1 (b.2 - e), e)

/-- Whether a ≤ b, for dyadic numbers. -/
def leDyadic (a b : Int × Int) : Bool :=
  let e := min a.2 b.2
  decide (scale2 a.1 (a.2 - e) ≤ scale2 b.1 (b.2 - e))

/-- floor_log2 of the magnitude of m × 2^e, m nonzero (R124). -/
def floorLog2 (m e : Int) : Int := (m.natAbs.log2 : Int) + e

/-- The sign of a value. -/
def XVal.neg : XVal → Bool
  | .nan => false
  | .inf n | .zero n => n
  | .fin m _ => decide (m < 0)

/-- A finite value as a dyadic number; NaN and infinities as 0. -/
def XVal.dyadic : XVal → Int × Int
  | .fin m e => (m, e)
  | _ => (0, 0)

/-- The negative of a value. -/
def XVal.minus : XVal → XVal
  | .nan => .nan
  | .inf n => .inf (!n)
  | .zero n => .zero (!n)
  | .fin m e => .fin (-m) e

/-- Exact IEEE 754 sum: opposite infinities give NaN, an exact zero sum of unlike signs is +0 (R143, R190). -/
def XVal.add : XVal → XVal → XVal
  | .nan, _ | _, .nan => .nan
  | .inf a, .inf b => if a = b then .inf a else .nan
  | .inf a, _ | _, .inf a => .inf a
  | .zero a, .zero b => .zero (a && b)
  | .zero _, x | x, .zero _ => x
  | .fin m e, .fin n f => let r := addDyadic (m, e) (n, f); XVal.ofDyadic r.1 r.2

/-- Exact IEEE 754 product: 0 × inf gives NaN (R190). -/
def XVal.mul (x y : XVal) : XVal :=
  let sg := x.neg != y.neg
  match x, y with
  | .nan, _ | _, .nan => .nan
  | .inf _, .zero _ | .zero _, .inf _ => .nan
  | .inf _, _ | _, .inf _ => .inf sg
  | .zero _, _ | _, .zero _ => .zero sg
  | .fin m e, .fin n f => .fin (m * n) (e + f)

/-- x × 2^k, exactly. -/
def XVal.scale (x : XVal) (k : Int) : XVal :=
  match x with
  | .fin m e => .fin m (e + k)
  | v => v

/-- The order MIN and MAX use on numbers: −0 below +0 (R190). -/
def XVal.le : XVal → XVal → Bool
  | .inf true, _ => true
  | _, .inf false => true
  | .inf false, _ => false
  | _, .inf true => false
  | .zero a, .zero b => a || !b
  | x, y => leDyadic x.dyadic y.dyadic

/-- Numeric order with −0 equal to +0 (R209). -/
def XVal.leNum : XVal → XVal → Bool
  | .zero _, .zero _ => true
  | x, y => XVal.le x y

/-! ## Rounding (R137, R138) -/

/-- m × 2^k rounded to an integer: RMODE 0 = RNE, 1 = RTZ, 2 = SR with the random value r. -/
def roundInt (m k : Int) (rmode r : Nat) : Int :=
  if 0 ≤ k then scale2 m k
  else
    let d : Int := 2 ^ (-k).toNat
    let lo := m / d
    let rem := m % d
    if rem = 0 then lo
    else match rmode with
      | 0 => if 2 * rem > d ∨ (2 * rem = d ∧ lo % 2 = 1) then lo + 1 else lo
      | 2 => if 2 ^ 32 ≤ rem * 2 ^ 32 / d + (r : Int) then lo + 1 else lo
      | _ => if m < 0 then lo + 1 else lo

/-! ## Formats (R116, R119) -/

/-- Bits per element (R116). -/
def fmtBits : Nat → Nat
  | 0x0 | 0x1 => 2
  | 0x2 | 0x6 => 4
  | 0x7 | 0x8 => 6
  | 0x3 | 0x9 | 0xA | 0xE => 8
  | 0x4 | 0xB | 0xC => 16
  | 0x5 | 0xD => 32
  | _ => 128

/-- A floating-point layout: mantissa bits, exponent bits, bias, and its special values: 0 none, 1 the NaN of E4M3,
2 infinities and NaNs of the largest exponent (R119). -/
structure FloatFmt where
  mb : Nat
  eb : Nat
  bias : Nat
  special : Nat
deriving DecidableEq, Repr

/-- The layout of a floating-point format (R119). -/
def floatFmt : Nat → Option FloatFmt
  | 0x6 => some ⟨1, 2, 1, 0⟩
  | 0x7 => some ⟨2, 3, 3, 0⟩
  | 0x8 => some ⟨3, 2, 1, 0⟩
  | 0x9 => some ⟨3, 4, 7, 1⟩
  | 0xA => some ⟨2, 5, 15, 2⟩
  | 0xB => some ⟨7, 8, 127, 2⟩
  | 0xC => some ⟨10, 5, 15, 2⟩
  | 0xD => some ⟨23, 8, 127, 2⟩
  | _ => none

/-- Whether a format is T1 or an integer format. -/
def isIntFmt (fmt : Nat) : Bool := fmt ≤ 5

/-- The sign bit of a layout. -/
def FloatFmt.signBit (f : FloatFmt) : Nat := 2 ^ (f.mb + f.eb)

/-- The bits of the largest finite magnitude (R119). -/
def FloatFmt.largestBits (f : FloatFmt) : Nat :=
  match f.special with
  | 0 => f.signBit - 1
  | 1 => f.signBit - 2
  | _ => (2 ^ f.eb - 1) * 2 ^ f.mb - 1

/-- The bits of the canonical NaN (R120). -/
def FloatFmt.nanBits (f : FloatFmt) : Nat :=
  if f.special = 1 then f.signBit - 1 else (2 ^ f.eb - 1) * 2 ^ f.mb + 2 ^ (f.mb - 1)

/-- The bits of +infinity. -/
def FloatFmt.infBits (f : FloatFmt) : Nat := (2 ^ f.eb - 1) * 2 ^ f.mb

/-- The value of a floating-point element (R119). -/
def FloatFmt.decode (f : FloatFmt) (v : Nat) : XVal :=
  let neg := bitOf v (f.mb + f.eb)
  let e := bits v f.mb f.eb
  let m := bits v 0 f.mb
  let sg : Int := if neg then -1 else 1
  if f.special = 2 ∧ e = 2 ^ f.eb - 1 then (if m = 0 then .inf neg else .nan)
  else if f.special = 1 ∧ v % f.signBit = f.signBit - 1 then .nan
  else if e = 0 then (if m = 0 then .zero neg else .fin (sg * m) (1 - f.bias - f.mb))
  else .fin (sg * (2 ^ f.mb + m : Nat)) ((e : Int) - f.bias - f.mb)

/-- The signed element bits of a magnitude. -/
def FloatFmt.withSign (f : FloatFmt) (neg : Bool) (v : Nat) : Nat := if neg then f.signBit + v else v

/-- What writing one element gives: its bits, a SPECIAL event (R142), a saturation (R134). -/
structure Enc where
  bits : Nat
  special : Bool := false
  sat : Bool := false
deriving DecidableEq, Repr

/-- Conversion of an exact value to a floating-point format (R139). -/
def FloatFmt.encode (f : FloatFmt) (rmode r : Nat) (nosat : Bool) (x : XVal) : Enc :=
  match x with
  | .nan => if f.special = 0 then ⟨0, true, false⟩ else ⟨f.nanBits, false, false⟩
  | .inf neg =>
    if f.special = 2 then ⟨f.withSign neg f.infBits, false, false⟩
    else if f.special = 1 ∧ nosat then ⟨f.nanBits, true, false⟩
    else ⟨f.withSign neg f.largestBits, true, false⟩
  | .zero neg => ⟨f.withSign neg 0, false, false⟩
  | .fin m e =>
    let neg := decide (m < 0)
    let q := max (floorLog2 m e) (1 - (f.bias : Int)) - f.mb
    let n := (roundInt m (e - q) rmode r).natAbs
    if n = 0 then ⟨f.withSign neg 0, false, false⟩
    else
      let (l, le) := (f.decode f.largestBits).dyadic
      if leDyadic ((n : Int), q) (l, le) then
        if n < 2 ^ f.mb then ⟨f.withSign neg n, false, false⟩
        else
          let k := n.log2
          ⟨f.withSign neg (((q + k + f.bias).toNat) * 2 ^ f.mb + (n * 2 ^ f.mb / 2 ^ k - 2 ^ f.mb)), false, false⟩
      else if nosat ∧ f.special ≠ 0 ∧ rmode ≠ 1 then
        (if f.special = 2 then ⟨f.withSign neg f.infBits, false, false⟩ else ⟨f.nanBits, false, false⟩)
      else ⟨f.withSign neg f.largestBits, false, false⟩

/-- Conversion to a w-bit integer format (R140). -/
def encodeInt (w rmode r : Nat) (nosat : Bool) (x : XVal) : Enc :=
  let hi : Int := 2 ^ (w - 1) - 1
  let lo : Int := -2 ^ (w - 1)
  match x with
  | .nan => ⟨0, true, false⟩
  | .inf neg => ⟨unsigned w (if neg then lo else hi), true, false⟩
  | .zero _ => ⟨0, false, false⟩
  | .fin m e =>
    let v := roundInt m e rmode r
    if lo ≤ v ∧ v ≤ hi then ⟨unsigned w v, false, false⟩
    else if nosat then ⟨unsigned w v, false, false⟩
    else ⟨unsigned w (if v < lo then lo else hi), false, false⟩

/-- An integer clamped to LS128, and whether it saturates (R132). -/
def clamp128 (v : Int) : Int × Bool :=
  if v > 2 ^ 127 - 1 then (2 ^ 127 - 1, true) else if v < -2 ^ 127 then (-2 ^ 127, true) else (v, false)

/-- Conversion to T1 (R141). -/
def encodeT1 (rmode r : Nat) (x : XVal) : Enc :=
  match x with
  | .nan => ⟨0, true, false⟩
  | .inf neg => ⟨if neg then 3 else 1, true, false⟩
  | .zero _ => ⟨0, false, false⟩
  | .fin m e =>
    let v := roundInt m e rmode r
    ⟨if v = 0 then 0 else if v < 0 then 3 else 1, false, false⟩

/-- Conversion to LS128 with scale q (R141). -/
def encodeLs (q : Int) (rmode r : Nat) (x : XVal) : Enc :=
  match x with
  | .nan => ⟨0, true, false⟩
  | .inf neg => ⟨unsigned 128 (if neg then -2 ^ 127 else 2 ^ 127 - 1), true, true⟩
  | .zero _ => ⟨0, false, false⟩
  | .fin m e =>
    let (v, sat) := clamp128 (roundInt m (e - q) rmode r)
    ⟨unsigned 128 v, false, sat⟩

/-- Conversion to E8M0 (R141). -/
def encodeE8 (x : XVal) : Enc :=
  match x with
  | .nan => ⟨0xFF, false, false⟩
  | .inf _ => ⟨0xFF, true, false⟩
  | .zero _ => ⟨0, false, false⟩
  | .fin m e => ⟨(min (max (floorLog2 m e + 127) 0) 254).toNat, false, false⟩

/-- Conversion of an exact value to an element of a format (R136 to R141). -/
def encodeEl (fmt : Nat) (lsq : Int) (rmode r : Nat) (nosat : Bool) (x : XVal) : Enc :=
  match floatFmt fmt with
  | some f => f.encode rmode r nosat x
  | none => match fmt with
    | 0x0 => encodeT1 rmode r x
    | 0xE => encodeE8 x
    | 0xF => encodeLs lsq rmode r x
    | _ => encodeInt (fmtBits fmt) rmode r nosat x

/-- The value of an element, and whether it is the T1 code 10, which reads as 0 (R116 to R121, R131). -/
def decodeEl (fmt : Nat) (lsq : Int) (v : Nat) : XVal × Bool :=
  match floatFmt fmt with
  | some f => (f.decode v, false)
  | none => match fmt with
    | 0x0 => if v = 2 then (.zero false, true) else (XVal.ofDyadic (signed 2 v) 0, false)
    | 0xE => if v = 0xFF then (.nan, false) else (.fin 1 ((v : Int) - 127), false)
    | 0xF => (XVal.ofDyadic (signed 128 v) lsq, false)
    | _ => (XVal.ofDyadic (signed (fmtBits fmt) v) 0, false)

/-- Element i of an operand read as one little-endian bit string (R117). -/
def element (w : Nat) (str i : Nat) : Nat := bits str (w * i) w

/-- The bit string of a list of w-bit elements (R117). -/
def packElements (w : Nat) : List Nat → Nat
  | [] => 0
  | v :: vs => v % 2 ^ w + 2 ^ w * packElements w vs

/-! ## FP32 (R143) -/

/-- The FP32 layout. -/
def fp32 : FloatFmt := ⟨23, 8, 127, 2⟩

/-- The value of an FP32 element. -/
def fpVal (v : Nat) : XVal := fp32.decode v

/-- An FP32 arithmetic result: one rounding, RNE overflow to infinity (R143). -/
def fpRound (rmode : Nat) (x : XVal) : Nat := (fp32.encode rmode 0 true x).bits

/-- Integer square root of v by bits, from bit n − 1 down: the largest r with r² ≤ v below 2^n. -/
def isqrt (v : Nat) : Nat → Nat → Nat
  | 0, r => r
  | n + 1, r => let t := r + 2 ^ n; isqrt v n (if t * t ≤ v then t else r)

/-- The exact square root of a positive value to more than FP32's precision, with a sticky low bit. -/
def sqrtX (m : Nat) (e : Int) : XVal :=
  let (m1, e1) := if e % 2 = 0 then (m, e) else (2 * m, e - 1)
  let v := m1 * 2 ^ 64
  let r := isqrt v 48 0
  .fin ((2 * r + b2n (r * r != v) : Nat) : Int) (e1 / 2 - 33)

/-! ## Plane-form packing (R123 to R126) -/

/-- P_base of a weight format (R123); 0: no such role. -/
def planeBase : Nat → Nat
  | 0x0 => 1 | 0x1 => 2 | 0x2 => 4 | 0x3 => 8 | 0x4 => 16
  | 0x6 => 2 | 0x7 => 3 | 0x8 => 4 | 0x9 => 4 | 0xA => 3 | 0xB => 8 | 0xC => 11 | 0xD => 24
  | _ => 0

/-- D of an activation format (R123); 0: no such role. -/
def digitCount : Nat → Nat
  | 0x0 | 0x1 | 0x2 | 0x3 | 0x6 | 0x7 | 0x8 | 0x9 | 0xA | 0xB => 1
  | 0x4 | 0xC => 2
  | 0x5 => 4
  | 0xD => 3
  | _ => 0

/-- Stored bit planes of a weight tile: p, or two for T1 (R128). -/
def storedPlanes (fmt g : Nat) : Nat := if fmt = 0 then 2 else planeBase fmt + g

/-- A packed block: its scale, its mantissas, SPECIAL events and a clamp at the highest scale (R124). -/
structure Packed where
  scale : Nat
  mants : List Int
  special : Nat := 0
  clamped : Bool := false
  t1 : Nat := 0
deriving DecidableEq, Repr

/-- Mantissas at scale e, clamped, and whether all fit (R124). -/
def mantsAt (p : Nat) (e : Int) (xs : List XVal) : List Int × Bool :=
  let hi : Int := 2 ^ (p - 1) - 1
  let lo : Int := -2 ^ (p - 1)
  let ys := xs.map fun x => match x with
    | .fin m k => roundInt m (k + 127 - e) 0 0
    | _ => 0
  (ys.map fun y => max lo (min hi y), ys.all fun y => decide (lo ≤ y ∧ y ≤ hi))

/-- pack_block of R124 for finite values. -/
def packBlock (p : Nat) (xs : List XVal) : Packed :=
  match (xs.filterMap fun x => match x with
    | .fin m e => some (floorLog2 m e)
    | _ => none).max? with
  | none => ⟨0, xs.map fun _ => 0, 0, false, 0⟩
  | some emax =>
    let e := min (max (emax - ((p : Int) - 2) + 127) 0) 254
    let (m, fits) := mantsAt p e xs
    if fits || e = 254 then ⟨e.toNat, m, 0, !fits, 0⟩
    else
      let (m2, fits2) := mantsAt p (e + 1) xs
      ⟨(e + 1).toNat, m2, 0, !fits2, 0⟩

/-- Pack one block of 32 elements with its external scale, if any (R122, R124 to R126). -/
def packElems (fmt p : Nat) (scale : Option Nat) (els : List Nat) : Packed :=
  if isIntFmt fmt then
    let vs := els.map fun v => decodeEl fmt 0 v
    let t1 := (vs.filter (·.2)).length
    match scale with
    | some 0xFF => ⟨0, els.map fun _ => 0, 1, false, t1⟩
    | sc => ⟨sc.getD 127, vs.map fun v => scale2 v.1.dyadic.1 v.1.dyadic.2, 0, false, t1⟩
  else match floatFmt fmt with
    | none => ⟨0, els.map fun _ => 0, 0, false, 0⟩
    | some f =>
      let xs := els.map fun v => if scale = some 0xFF then XVal.nan else f.decode v
      let fixed := xs.map fun x => match x with
        | .nan => XVal.zero false
        | .inf neg => f.decode (f.withSign neg f.largestBits)
        | v => v
      let r := packBlock p (fixed.map fun x => x.scale ((scale.getD 127 : Nat) - 127 : Int))
      { r with special := (xs.filter fun x => match x with
        | .nan | .inf _ => true
        | _ => false).length }

/-! ## Twist-4 (R216) -/

/-- Rotate left. -/
def rotl32 (v : Word) (k : Nat) : Word := v.rotateLeft k

/-- The round constants of R216. -/
def twistRc : List Word :=
  [0x5A17C3E9, 0xB42D6F08, 0x1E9CA573, 0xE0634DB1, 0x7BD81026, 0x94F2E85C, 0x2A4597CD, 0xCF8B3E14, 0x6310DA9F, 0x08E75B62]

/-- The rounds of Twist-4. -/
def twistRounds (k : List Word) : Nat → List Word → Word → Word → Word → Word → List Word
  | _, [], a, b, c, d => [a, b, c, d]
  | r, rc :: rest, a, b, c, d =>
    let m := a * 0x01001011
    twistRounds k (r + 1) rest (b ^^^ rotl32 m 12) (c ^^^ k.getD (r % 4) 0) (d ^^^ rc) m

/-- Twist-4 (R216): key and counter to four lanes. -/
def twist4 (k c : List Word) : List Word :=
  let x (i : Nat) := c.getD i 0 ^^^ k.getD i 0
  let out := twistRounds k 0 twistRc (x 0) (x 1) (x 2) (x 3)
  (List.range 4).map fun i => out.getD i 0 ^^^ k.getD (3 - i) 0

end Sys2Proof.Machine
end

