-- ==== Sys2Proof/Machine/Regs.lean ====
section
/-! DEFINITION. The BAR0 address map (R254, R255, R382), the common header (R372, R375) and the field table of every
register of every block: bits, access code, reset value and valid encodings (R9, R10, R12). -/

namespace Sys2Proof.Machine

/-- A block of BAR0 (R254, R255), or the VFN block of a virtual function. -/
inductive Blk where
  | host | plan | hold | mem | clk | gov | cast | fab | srv | boot | flt | evrPkg | mgt
  | pnl (p : Nat) | num (p : Nat) | sa (p : Nat) | eng (p : Nat) | skn (p : Nat) | hbm (p s : Nat) | sts (p : Nat)
  | row (p : Nat) | ply (l : Nat) | ni (p : Nat) | d2d (p : Nat) | icu (p : Nat) | cc (p : Nat) | evr (p : Nat)
  | pwr (p : Nat) | thm (p : Nat) | str (p c : Nat) | vfn (v : Nat)
deriving DecidableEq, Repr

/-- The page number of a panel block in its window (R255). -/
def Blk.page : Blk → Nat
  | .host => 0 | .plan => 1 | .hold => 2 | .mem => 3 | .clk => 4 | .gov => 5 | .cast => 6 | .fab => 7 | .srv => 8
  | .boot => 9 | .flt => 10 | .evrPkg => 11 | .mgt => 12
  | .pnl _ => 0 | .num _ => 1 | .sa _ => 2 | .eng _ => 3 | .skn _ => 4 | .hbm _ s => 5 + s | .sts _ => 8 | .row _ => 9
  | .ply l => 10 + l % 4 | .ni _ => 14 | .d2d _ => 15 | .icu _ => 16 | .cc _ => 17 | .evr _ => 18 | .pwr _ => 19
  | .thm _ => 20 | .str _ c => 64 + c | .vfn _ => 0

/-- The panel of a panel block (R16 for a ply link). -/
def Blk.panel? : Blk → Option Nat
  | .pnl p | .num p | .sa p | .eng p | .skn p | .hbm p _ | .sts p | .row p | .ni p | .d2d p | .icu p | .cc p | .evr p
  | .pwr p | .thm p | .str p _ => some p
  | .ply l => some (l / 4)
  | _ => none

/-- The byte offset of a block: its page in BAR0, or for a VFN block a place above BAR0 of the model's own. -/
def Blk.base (b : Blk) : Nat :=
  match b with
  | .vfn v => 0x20000000 + v * 0x20000
  | _ => (match b.panel? with
    | some p => 0x10000000 + p * 0x02000000
    | none => 0) + b.page * 0x10000

/-- The package blocks in page order (R254). -/
def pkgBlocks : List Blk :=
  [.host, .plan, .hold, .mem, .clk, .gov, .cast, .fab, .srv, .boot, .flt, .evrPkg, .mgt]

/-- The blocks of pages 0 to 20 of panel p in page order (R255). -/
def panelBlocks (p : Nat) : List Blk :=
  [.pnl p, .num p, .sa p, .eng p, .skn p, .hbm p 0, .hbm p 1, .hbm p 2, .sts p, .row p, .ply (4 * p), .ply (4 * p + 1),
   .ply (4 * p + 2), .ply (4 * p + 3), .ni p, .d2d p, .icu p, .cc p, .evr p, .pwr p, .thm p]

/-- The block and offset of a BAR0 address, or none for a reserved page (R254 to R256). -/
def blockAt (a : Nat) : Option (Blk × Nat) :=
  let off := a % 0x10000
  if a < 0x10000000 then (pkgBlocks[a / 0x10000]?).map (·, off)
  else if a < 0x20000000 then
    let p := (a - 0x10000000) / 0x02000000
    let page := (a - 0x10000000) % 0x02000000 / 0x10000
    if page < 21 then ((panelBlocks p)[page]?).map (·, off)
    else if 64 ≤ page ∧ page < 352 then some (.str p (page - 64), off)
    else none
  else none

/-- BLK_ID.TYPE (R375). -/
def Blk.typ : Blk → Nat
  | .host => 0x01 | .plan => 0x02 | .hold => 0x03 | .mem => 0x04 | .clk => 0x05 | .gov => 0x06 | .cast => 0x07
  | .fab => 0x08 | .srv => 0x09 | .boot => 0x0A | .flt => 0x0B | .evrPkg => 0x0C | .mgt => 0x0D | .vfn _ => 0x0E
  | .pnl _ => 0x20 | .num _ => 0x21 | .sa _ => 0x22 | .eng _ => 0x23 | .skn _ => 0x24 | .hbm _ _ => 0x25
  | .sts _ => 0x26 | .row _ => 0x27 | .ply _ => 0x28 | .ni _ => 0x29 | .d2d _ => 0x2A | .icu _ => 0x2B | .cc _ => 0x2C
  | .evr _ => 0x2D | .pwr _ => 0x2E | .thm _ => 0x2F | .str _ _ => 0x30

/-- BLK_ID.INSTANCE (R372). -/
def Blk.instNo : Blk → Nat
  | .hbm _ s => s | .ply l => l | .str _ c => c | .vfn v => v | _ => 0

/-- The BLK_ID word (R372). -/
def Blk.idWord (b : Blk) : Nat :=
  (b.panel?.getD 0) * 2 ^ 29 + b2n b.panel?.isNone * 2 ^ 28 + b.instNo * 2 ^ 19 + b.typ * 2 ^ 8

/-- The defined BLK_ERR bits (R457 and the owning chapters). -/
def Blk.errBits : Blk → Nat
  | .str _ _ => 0x7FE | .plan => 1 | .num _ => 7 | .sa _ => 15 | .eng _ => 7 | .skn _ => 3 | .hbm _ _ => 1 | .sts _ => 1
  | .row _ => 7 | .cast => 7 | .ply _ => 63 | .ni _ => 15 | .fab => 3 | .srv => 3 | .host => 7 | .vfn _ => 1 | .icu _ => 3
  | .mem => 1 | .mgt => 3 | .clk => 15 | .pwr _ => 3 | .thm _ => 1 | .d2d _ => 3 | .boot => 15 | .cc _ => 3 | .flt => 127
  | _ => 0

/-- The stop-class bits of BLK_ERR (R456, R457). The NI bits count here for the mask (R372); whether one raises a
stop request depends on the packet's lot (`niOwn`). -/
def Blk.stopBits : Blk → Nat
  | .str _ _ => 0x7FE | .plan => 1 | .num _ => 7 | .sa _ => 15 | .eng _ => 7 | .skn _ => 3 | .hbm _ _ => 1 | .sts _ => 1
  | .row _ => 3 | .ply _ => 0x21 | .ni _ => 15 | .srv => 2 | .host => 1 | .clk => 5 | .pwr _ => 2 | .thm _ => 1
  | .d2d _ => 3 | .boot => 4 | .cc _ => 3 | .flt => 0x3F
  | _ => 0

/-- The defined BLK_IRQ_CAUSE bits. -/
def Blk.irqBits : Blk → Nat
  | .hold => 3 | .sts _ => 1 | .cast => 3 | .ply _ => 1 | .srv => 3 | .host => 1 | .vfn _ => 7 | .clk => 7 | .gov => 1
  | .thm _ => 3 | .boot => 7 | .flt => 3 | .mgt => 3
  | _ => 0

/-- The number of the highest set bit plus 1, 0 for 0 (BLK_CAPS). -/
def topBit (v : Nat) : Nat := if v = 0 then 0 else v.log2 + 1

/-- The power domain of a block (R36, R402); none: no domain of R36 names the block, and it is always ON (log entry 4). -/
def Blk.domain : Blk → Option (Nat × Nat)
  | .str p c => some (p, c / 36)
  | .ply l => some (l / 4, 8)
  | .ni p => some (p, 8)
  | .hbm p _ => some (p, 9)
  | .sts p => some (p, 10)
  | .icu p | .cc p | .evr p => some (p, 11)
  | _ => none

/-! ## Register fields -/

/-- Access codes (R9). -/
inductive AccessCode where
  | rw | ro | wo | w1c | rc
deriving DecidableEq, Repr

/-- A register field: its lowest bit, width, access code, reset value and valid encodings. Bits without a
field are rsvd (R10). -/
structure Field where
  lo : Nat
  w : Nat
  acc : AccessCode
  reset : Nat := 0
  ok : Nat → Bool := fun _ => true

/-- A field that is one whole RO word. -/
def roWord : List Field := [⟨0, 32, .ro, 0, fun _ => true⟩]
/-- A field that is one whole RW word. -/
def rwWord : List Field := [⟨0, 32, .rw, 0, fun _ => true⟩]
/-- A 32-bit RC count. -/
def rcWord : List Field := [⟨0, 32, .rc, 0, fun _ => true⟩]
/-- A 32-bit W1C word. -/
def w1cWord : List Field := [⟨0, 32, .w1c, 0, fun _ => true⟩]
/-- A plain RW field. -/
def rwF (lo w : Nat) (reset : Nat := 0) (ok : Nat → Bool := fun _ => true) : Field := ⟨lo, w, .rw, reset, ok⟩
/-- An RO field. -/
def roF (lo w : Nat) (reset : Nat := 0) : Field := ⟨lo, w, .ro, reset, fun _ => true⟩
/-- A WO field. -/
def woF (lo w : Nat) : Field := ⟨lo, w, .wo, 0, fun _ => true⟩

/-- The common header at 0x000 to 0x02C (R372). -/
def headerFields (b : Blk) (off : Nat) : List Field :=
  match off with
  | 0x00 | 0x04 | 0x08 | 0x10 | 0x1C | 0x2C => roWord
  | 0x0C => [woF 0 1]
  | 0x14 | 0x20 => w1cWord
  | 0x18 => (List.range 32).filterMap fun k => if bitOf (b.errBits) k && !bitOf (b.stopBits) k then some (rwF k 1) else none
  | 0x24 => (List.range 32).filterMap fun k => if bitOf b.irqBits k then some (rwF k 1 (match b with | .vfn _ => 0 | _ => 1)) else none
  | 0x28 => [rwF 0 2 0 (· != 3)]
  | _ => []

/-- The stream block (R78 to R84). -/
def strFields : Nat → List Field
  | 0x40 => [rwF 2 4]
  | 0x44 => roWord
  | 0x48 => [rwF 0 8]
  | 0x4C => [roF 24 4 15, roF 0 24]
  | 0x50 | 0x54 | 0x58 | 0x5C | 0x70 | 0x74 | 0xA8 | 0xAC => roWord
  | 0x60 => [rwF 16 16]
  | 0x64 | 0x94 => [rwF 0 16]
  | 0x68 => [rwF 12 20]
  | 0x6C => [rwF 0 12]
  | 0x78 => rcWord
  | 0x7C => [roF 0 16]
  | 0x80 | 0x84 | 0x88 | 0x98 | 0x9C => rwWord
  | 0x90 => [rwF 6 26]
  | 0xA0 => [rwF 1 1 1, woF 0 1]
  | _ => []

/-- PLAN (R111). -/
def planFields (off : Nat) : List Field :=
  match off with
  | 0x40 => [woF 0 1]
  | 0x48 | 0x4C | 0x50 | 0x54 | 0x58 | 0x5C | 0x6C | 0x70 | 0x74 => roWord
  | 0x60 | 0x64 => rwWord
  | 0x68 => rcWord
  | _ => if 0x100 ≤ off ∧ off < 0x200 then rwWord else []

/-- HOLD (R112 to R114). -/
def holdFields (off : Nat) : List Field :=
  match off with
  | 0x40 => [rwF 2 1 1, woF 0 2]
  | 0x44 | 0x58 | 0xE0 => roWord
  | 0x48 => [⟨0, 8, .w1c, 0, fun _ => true⟩]
  | 0x4C => [rwF 0 11 1000 fun v => decide (100 ≤ v ∧ v ≤ 1500)]
  | 0x50 => [rwF 0 16 1000]
  | 0x54 => [rwF 0 10]
  | _ => if 0x60 ≤ off ∧ off < 0xE0 then roWord else []

/-- MEM (R262). -/
def memFields : Nat → List Field
  | 0x40 => [rwF 30 2]
  | 0x44 => [rwF 0 16]
  | 0x48 => [roF 0 6 36]
  | 0x50 | 0x54 => roWord
  | _ => []

/-- CLK (R415). -/
def clkFields : Nat → List Field
  | 0x40 => [rwF 0 2 0 (· != 3)]
  | 0x44 | 0x48 | 0x4C | 0x60 | 0x64 | 0x68 => roWord
  | 0x50 | 0x54 | 0x58 => rwWord
  | 0x5C => [woF 0 2]
  | 0x6C => rcWord
  | _ => []

/-- The governor's PWR block (R416). -/
def govFields : Nat → List Field
  | 0x40 => [rwF 0 13 4800 fun v => decide (2600 ≤ v ∧ v ≤ 4800)]
  | 0x44 | 0x48 => roWord
  | _ => []

/-- CAST (R289, R290). -/
def castFields (off : Nat) : List Field :=
  match off with
  | 0x40 => [rwF 16 5, rwF 8 6, woF 0 2]
  | 0x44 | 0x58 | 0x5C | 0x60 | 0x64 => roWord
  | 0x48 => [rwF 0 16 1000 fun v => decide (10 ≤ v)]
  | 0x4C => [rwF 0 24 0x075300]
  | 0x50 | 0x54 => rwWord
  | 0x68 => [roF 31 1, woF 16 1, rwF 0 16]
  | 0x6C => [rwF 0 16 100 (· != 0)]
  | 0x70 | 0x74 => rcWord
  | _ =>
    if 0x100 ≤ off ∧ off < 0x500 then
      match off % 16 with
      | 0 => [rwF 31 1, rwF 30 1, rwF 28 2 0 (· != 3), roF 24 3, rwF 16 5, rwF 8 6, rwF 0 5]
      | 4 => [rwF 0 16]
      | 8 => rwWord
      | _ => roWord
    else []

/-- FAB (R324). COUNT of a context's table ranges counts 0 to 8,192: a larger value is taken as a reserved encoding, which keeps the old
one, though R324 does not call it reserved (log entry 105, DESIGN CHOICE). -/
def fabFields (off : Nat) : List Field :=
  match off with
  | 0x40 | 0x44 | 0xB4 | 0xB8 | 0xBC | 0xC4 => roWord
  | 0x48 => [rwF 31 1, rwF 0 2]
  | 0x90 => [rwF 31 1, rwF 0 13]
  | 0xA0 | 0xA4 | 0xA8 | 0xAC => rwWord
  | 0xB0 | 0xC0 => rcWord
  | _ =>
    if 0x50 ≤ off ∧ off < 0x90 then
      match off % 16 with
      | 0 => [rwF 31 1, rwF 0 16]
      | 4 => [rwF 0 20]
      | _ => [rwF 16 14 0 fun v => decide (v ≤ 8192), rwF 0 13]
    else []

/-- SRV, and the SRV view of a virtual function (R358, R366). -/
def srvFields : Nat → List Field
  | 0x40 => [rwF 0 1]
  | 0x44 | 0x50 | 0x54 | 0x60 | 0x64 | 0x7C => roWord
  | 0x48 => [rwF 0 22 0x200000 fun v => decide (1 ≤ v ∧ v ≤ 2097152)]
  | 0x4C => [rwF 0 32 1048576]
  | 0x58 | 0x5C => rcWord
  | 0x68 | 0x70 => [rwF 12 20]
  | 0x6C | 0x74 => rwWord
  | 0x78 => [rwF 8 8, rwF 0 8]
  | _ => []

/-- BOOT (R454). -/
def bootFields : Nat → List Field
  | 0x40 | 0x48 | 0x4C | 0x58 => roWord
  | 0x44 => [woF 1 5]
  | 0x50 => [rwF 12 20]
  | 0x54 | 0x64 => [rwF 0 16]
  | 0x5C => [roF 31 1, roF 16 8, rwF 8 4, rwF 0 2]
  | 0x60 => [rwF 6 26]
  | _ => []

/-- FLT (R484). -/
def fltFields (off : Nat) : List Field :=
  match off with
  | 0x40 => [rwF 4 1 1, rwF 3 1 1, woF 0 3]
  | 0x44 | 0x48 | 0x50 | 0x54 | 0x58 | 0x5C | 0x60 | 0x74 | 0x78 => roWord
  | 0x64 | 0x68 => rcWord
  | 0x70 => [rwF 31 1 1, roF 0 13]
  | 0x7C => [rwF 0 12]
  | _ => if 0x80 ≤ off ∧ off < 0xA0 then rwWord else []

/-- EVR (R485). -/
def evrFields (off : Nat) : List Field :=
  match off with
  | 0x40 => [rwF 1 1 1, woF 0 1]
  | 0x44 => [rwF 0 6 0x3D]
  | 0x48 | 0x4C => roWord
  | 0x50 => [rwF 0 10]
  | 0x54 | 0x58 => rcWord
  | _ =>
    if 0x100 ≤ off ∧ off < 0x1C0 then [rwF 31 1, rwF 2 27]
    else if 0x200 ≤ off ∧ off < 0x300 then roWord else []

/-- MGT (R486). -/
def mgtFields : Nat → List Field
  | 0x40 => [woF 31 1, rwF 3 1 1, rwF 2 1 1, rwF 1 1 1]
  | 0x44 => roWord
  | _ => []

/-- HOST (R368, R380, R381). -/
def hostFields (off : Nat) : List Field :=
  match off with
  | 0x40 | 0x48 | 0x50 | 0x54 => roWord
  | 0x44 => [woF 1 1, rwF 0 1 1]
  | 0x4C => [rwF 31 1 1, rwF 0 8 16 (· != 0)]
  | _ =>
    if 0x60 ≤ off ∧ off < 0x80 then roWord
    else if 0x80 ≤ off ∧ off < 0x280 then (if (off - 0x80) % 0x40 < 0x24 then roWord else [])
    else if 0x1000 ≤ off ∧ off < 0x2000 then
      match off % 16 with
      | 0 => [rwF 6 26]
      | 4 => rwWord
      | 8 => [rwF 0 28 0 (· != 0)]
      | _ => [rwF 31 1, rwF 0 7 0 fun v => decide (v ≤ 64)]
    else match off with
      | 0x2000 | 0x2004 | 0x2008 => rwWord
      | 0x200C => [rwF 0 1 1]
      | 0x3000 | 0x3004 => roWord
      | _ => []

/-- VFN (R382), and from 0x10000 the SRV view of the virtual function (R366). -/
def vfnFields : Nat → List Field
  | 0x40 => [woF 0 1]
  | 0x44 | 0x48 | 0x4C => roWord
  | 0x2000 | 0x2004 | 0x2008 => rwWord
  | 0x200C => [rwF 0 1 1]
  | 0x3000 | 0x3004 => roWord
  | 0x10044 | 0x1007C => roWord
  | 0x10068 | 0x10070 => [rwF 12 20]
  | 0x1006C | 0x10074 => rwWord
  | 0x10078 => [rwF 8 8, rwF 0 8]
  | _ => []

/-- PNL (R23, R24). -/
def pnlFields (off : Nat) : List Field :=
  if off = 0x40 then roWord else if 0x80 ≤ off ∧ off < 0xC0 then roWord else []

/-- NUM (R145 to R147). -/
def numFields (off : Nat) : List Field :=
  match off with
  | 0x40 => [rwF 0 2]
  | 0x44 | 0x48 | 0x4C => roWord
  | _ =>
    if (0x80 ≤ off ∧ off < 0xA4) ∨ (0xC0 ≤ off ∧ off < 0xE4) ∨ (0x100 ≤ off ∧ off < 0x124) then w1cWord else []

/-- SA (R174, R175). -/
def saFields : Nat → List Field
  | 0x40 | 0x44 | 0x48 | 0x4C => roWord
  | 0x50 => rcWord
  | 0x54 => [rwF 31 1, rwF 9 2 0 fun v => decide (v ≤ 1), rwF 0 9]
  | _ => []

/-- ENG (R221, R222). -/
def engFields (off : Nat) : List Field :=
  match off with
  | 0x40 | 0x44 | 0x48 | 0x4C | 0x54 => roWord
  | 0x50 => [rwF 0 9]
  | _ => if 0x60 ≤ off ∧ off < 0x80 then roWord else []

/-- SKN (R259). -/
def sknFields : Nat → List Field
  | 0x40 => [rwF 0 3 5 fun v => decide (v ≤ 5)]
  | 0x44 => rcWord
  | 0x48 | 0x4C | 0x50 | 0x54 | 0x58 => roWord
  | 0x5C => [rwF 31 1, rwF 9 2 0 fun v => decide (v ≤ 1), rwF 0 9]
  | _ => []

/-- HBM (R260). -/
def hbmFields : Nat → List Field
  | 0x40 => [rwF 0 1]
  | 0x44 => [rwF 0 16 3900]
  | 0x48 => [rwF 0 16]
  | 0x4C => [rwF 0 5 16 fun v => decide (12 ≤ v ∧ v ≤ 20)]
  | 0x50 => [rwF 0 20]
  | 0x54 => [rwF 0 13 128 fun v => decide (16 ≤ v ∧ v ≤ 4096 ∧ v % 16 = 0)]
  | 0x58 => rcWord
  | 0x5C | 0x60 | 0x64 | 0x68 | 0x6C | 0x70 => roWord
  | 0x74 => [rwF 31 1, rwF 0 2 0 fun v => decide (v ≤ 1)]
  | _ => []

/-- STS (R261). -/
def stsFields : Nat → List Field
  | 0x40 => [woF 0 4]
  | 0x44 | 0x5C | 0x60 | 0x68 | 0x6C | 0x70 | 0x74 | 0x78 | 0x7C | 0x80 => roWord
  | 0x48 | 0x50 => [rwF 12 20]
  | 0x4C => [rwF 0 12]
  | 0x54 => [rwF 0 16]
  | 0x58 => [rwF 0 16 0 fun v => v != 0]
  | 0x64 => rcWord
  | _ => []

/-- ROW (R288). -/
def rowFields : Nat → List Field
  | 0x40 => [rwF 0 1]
  | 0x44 => [rwF 31 1, rwF 12 9, rwF 0 12]
  | 0x48 => rwWord
  | 0x4C | 0x50 | 0x54 | 0x58 | 0x5C | 0x60 => roWord
  | _ => []

/-- PLY (R322). -/
def plyFields (off : Nat) : List Field :=
  match off with
  | 0x40 => [rwF 24 8 10 fun v => decide (1 ≤ v ∧ v ≤ 250), rwF 16 7 4 fun v => decide (1 ≤ v ∧ v ≤ 64), rwF 3 1 1, woF 1 2, rwF 0 1]
  | 0x44 | 0x50 | 0x54 | 0x58 | 0x5C | 0x80 => roWord
  | 0x48 | 0x4C => rwWord
  | 0x60 | 0x64 | 0x68 | 0x6C => [rwF 31 1, roF 30 1, rwF 0 16 0 (· != 0)]
  | 0x70 | 0x74 | 0x78 | 0x7C | 0x84 | 0x88 | 0x8C => rcWord
  | _ => []

/-- NI (R323). -/
def niFields : Nat → List Field
  | 0x40 | 0x44 | 0x48 | 0x4C => roWord
  | _ => []

/-- D2D (R419). -/
def d2dFields : Nat → List Field
  | 0x40 | 0x50 | 0x60 => roWord
  | 0x44 | 0x54 | 0x64 => rcWord
  | _ => []

/-- ICU (R389). -/
def icuFields (off : Nat) : List Field :=
  if 0x40 ≤ off ∧ off < 0x80 then
    match off % 16 with
    | 0 | 8 => roWord
    | 4 => [woF 0 9]
    | _ => []
  else if 0x80 ≤ off ∧ off < 0xC0 then [rwF 0 16]
  else if off = 0xC0 then [rwF 0 8]
  else if off = 0xC4 then [woF 8 1, woF 0 3]
  else if 0x1000 ≤ off ∧ off < 0x1800 then
    [rwF 31 1, rwF 28 3 0 fun v => decide (v ≤ 4), rwF 24 4, rwF 22 2, roF 2 1, roF 1 1, ⟨0, 1, .w1c, 0, fun _ => true⟩]
  else if 0x1800 ≤ off ∧ off < 0x1A00 then rcWord
  else if 0x1A00 ≤ off ∧ off < 0x1A40 then roWord
  else []

/-- CC (R455). -/
def ccFields : Nat → List Field
  | 0x40 => roWord
  | 0x44 => [woF 31 1, rwF 0 16]
  | 0x48 => rcWord
  | _ => []

/-- The panel PWR block (R417). -/
def pwrFields (off : Nat) : List Field :=
  if off = 0x70 then roWord
  else if 0x40 ≤ off ∧ off < 0x70 then [rwF 31 1 (b2n (off = 0x6C)), roF 0 3]
  else []

/-- THM (R418). -/
def thmFields : Nat → List Field
  | 0x40 | 0x48 => roWord
  | 0x44 => [rwF 16 7 100 fun v => decide (80 ≤ v ∧ v ≤ 104), rwF 0 7 95 fun v => decide (60 ≤ v ∧ v ≤ 104)]
  | _ => []

/-- The fields of the register at an offset of a block; empty for a reserved offset (R256). -/
def Blk.fields (b : Blk) (off : Nat) : List Field :=
  if off % 4 ≠ 0 then []
  else if off < 0x40 then headerFields b off
  else match b with
  | .host => hostFields off | .plan => planFields off | .hold => holdFields off | .mem => memFields off
  | .clk => clkFields off | .gov => govFields off | .cast => castFields off | .fab => fabFields off
  | .srv => srvFields off | .boot => bootFields off | .flt => fltFields off | .evrPkg => evrFields off
  | .mgt => mgtFields off | .pnl _ => pnlFields off | .num _ => numFields off | .sa _ => saFields off
  | .eng _ => engFields off | .skn _ => sknFields off | .hbm _ _ => hbmFields off | .sts _ => stsFields off
  | .row _ => rowFields off | .ply _ => plyFields off | .ni _ => niFields off | .d2d _ => d2dFields off
  | .icu _ => icuFields off | .cc _ => ccFields off | .evr _ => evrFields off | .pwr _ => pwrFields off
  | .thm _ => thmFields off | .str _ _ => strFields off | .vfn _ => vfnFields off

/-- The reset value of a register: its fields' reset values (R9); WO fields read 0. -/
def resetWord (b : Blk) (off : Nat) : Word :=
  BitVec.ofNat 32 ((b.fields off).foldl (fun acc f => acc + f.reset * 2 ^ f.lo) 0)

/-- The offset of the _HI half when the offset is the _LO half of a 64-bit value (R363). -/
def Blk.hiOf (b : Blk) (off : Nat) : Option Nat :=
  let is (l : List Nat) : Option Nat := if l.contains off then some (off + 4) else none
  match b with
  | .str _ _ => is [0x50, 0x58, 0x60, 0x68, 0x70, 0x80, 0x90, 0x98, 0xA8]
  | .plan => is [0x48, 0x50, 0x58, 0x60, 0x70]
  | .hold => if 0xA0 ≤ off ∧ off < 0xE0 ∧ off % 8 = 0 then some (off + 4) else none
  | .num _ | .sa _ | .eng _ | .ni _ => is [0x48]
  | .skn _ => is [0x50]
  | .hbm _ _ => is [0x64, 0x6C]
  | .sts _ => is [0x48, 0x50, 0x70, 0x78]
  | .mem => is [0x40, 0x50]
  | .row _ => is [0x5C]
  | .cast => is [0x50, 0x58]
  | .ply _ => is [0x48, 0x50]
  | .fab => is [0x40, 0xB8]
  | .srv => is [0x68, 0x70]
  | .clk => is [0x48, 0x50, 0x64]
  | .boot => is [0x50, 0x60]
  | .flt => is [0x50, 0x58]
  | .evr _ | .evrPkg => is [0x48]
  | .host => if 0x1000 ≤ off ∧ off < 0x2000 ∧ off % 16 = 0 then some (off + 4) else none
  | _ => none

/-- What a write of `v` leaves in a register that held `old`, field by field (R9, R10, R12). -/
def writeFields (fs : List Field) (old v : Nat) : Nat :=
  fs.foldl (fun acc f =>
    let x := bits v f.lo f.w
    match f.acc with
    | .rw => if f.ok x then setBits acc f.lo f.w x else acc
    | .w1c => setBits acc f.lo f.w (bits acc f.lo f.w &&& (2 ^ f.w - 1 - x))
    | .ro | .wo | .rc => acc) old

/-- A written value without the W1C bits that this tick has set, `fresh`: the write does not clear them (R11). -/
def keepNew (fs : List Field) (v fresh : Nat) : Nat :=
  fs.foldl (fun acc f =>
    match f.acc with
    | .w1c => setBits acc f.lo f.w (bits acc f.lo f.w &&& (2 ^ f.w - 1 - bits fresh f.lo f.w))
    | _ => acc) v

/-- Whether a write of `v` holds a reserved encoding in some field (R12, R373). -/
def hasReserved (fs : List Field) (v : Nat) : Bool :=
  fs.any fun f => f.acc = .rw && !f.ok (bits v f.lo f.w)

end Sys2Proof.Machine
end

