-- ==== Sys2Proof/Machine/Ops.lean ====
section
/-! DEFINITION. The named operations that meanings are made of: cores and slots, registers and their power, errors,
interrupt causes and stop requests, hold requests, row counters, and the wrapper `act` that every meaning goes through. -/

namespace Sys2Proof.Machine

/-! ## Panels, slots, cores -/

/-- ENABLED of PNL_SLOT_MAPk of panel p (R24); 0 on an absent panel (R4). -/
def slotMap (s : State) (p k : Nat) : Nat :=
  if p < s.fuses.panels then (FMap.look 0xFFFF s.fuses.slotMap (16 * p + k)).toNat else 0

/-- Whether physical core c of panel p is an enabled slot (R19, R22). -/
def slotEnabled (s : State) (p c : Nat) : Bool :=
  decide (c < 288) && bitOf (slotMap s p (c / 18)) (c % 18)

/-- The key of a core. -/
def coreKey (p c : Nat) : Nat := 288 * p + c

/-- The virtual core number of a core (R20, R21). -/
def virtOf (s : State) (k : Nat) : Nat :=
  let p := k / 288
  let c := k % 288
  256 * p + 16 * (c / 18) + (setBitsOf (c % 18) (slotMap s p (c / 18))).length

/-- The core that carries a virtual core number, if the package has it (R20, R21). -/
def physOf (s : State) (v : Nat) : Option Nat :=
  let p := v / 256
  let k := v % 256 / 16
  ((setBitsOf 18 (slotMap s p k))[v % 16]?).map fun slot => coreKey p (18 * k + slot)

/-- A core's state. -/
def State.core (s : State) (k : Nat) : Core := FMap.look {} s.cores k

/-- Replace a core's state. -/
def State.setCore (s : State) (k : Nat) (c : Core) : State := { s with cores := FMap.put {} s.cores k c }

/-- Change a core's state. -/
def State.modCore (s : State) (k : Nat) (f : Core → Core) : State := s.setCore k (f (s.core k))

/-- Change a core's stream. -/
def State.modStream (s : State) (k : Nat) (f : Stream → Stream) : State :=
  s.modCore k fun c => { c with stream := f c.stream }

/-- Whether some stream is in one of the given states. Unlisted cores are IDLE. -/
def anyStream (s : State) (f : StreamSt → Bool) : Bool := s.cores.any fun e => f e.2.stream.st

/-- Some stream is RUNNING. -/
def anyRunning (s : State) : Bool := anyStream s (· == .running)

/-- Every stream is IDLE or FAULTED (R397). -/
def allIdle (s : State) : Bool := !anyStream s fun x => x == .armed || x == .running

/-- A job is running (R108). -/
def jobRunning (s : State) : Bool := s.jobLive || !allIdle s

/-- The skein address of a byte of a core in the flat skein memory. -/
def skAddr (k off : Nat) : Nat := 0x400000 * k + off

/-- The virtual core's identity as a signaller of this package: ROW_LAST_SRC with LOCAL = 1 (R288). -/
def localSrc (s : State) (k : Nat) : Word := BitVec.ofNat 32 (2 ^ 31 + virtOf s k)

/-! ## Registers -/

/-- A register as stored: what was written, else its reset value. -/
def State.reg (s : State) (b : Blk) (off : Nat) : Word := FMap.look (resetWord b off) s.regs (b.base + off)

/-- A register as stored, as a number. -/
def State.regN (s : State) (b : Blk) (off : Nat) : Nat := (s.reg b off).toNat

/-- Store a register. -/
def State.setReg (s : State) (b : Blk) (off : Nat) (v : Word) : State :=
  { s with regs := FMap.put (resetWord b off) s.regs (b.base + off) v }

/-- Store a register given as a number. -/
def State.setRegN (s : State) (b : Blk) (off : Nat) (v : Nat) : State := s.setReg b off (BitVec.ofNat 32 v)

/-- A 64-bit value split over a _LO and a _HI register. -/
def State.reg64 (s : State) (b : Blk) (off : Nat) : Nat := s.regN b off + 2 ^ 32 * s.regN b (off + 4)

/-- Store a 64-bit value over a _LO and a _HI register. -/
def State.setReg64 (s : State) (b : Blk) (off v : Nat) : State :=
  (s.setRegN b off (v % 2 ^ 32)).setRegN b (off + 4) (v / 2 ^ 32)

/-- One bit of a register. -/
def State.regBit (s : State) (b : Blk) (off k : Nat) : Bool := bitOf (s.regN b off) k

/-- Note that a count is incremented in this tick: a read in the same tick that clears it returns the count before, and leaves these
increments (R11). -/
def State.noteInc (s : State) (b : Blk) (off n : Nat) : State :=
  let was := FMap.look (s.regN b off, 0) s.incNow (b.base + off)
  { s with incNow := FMap.put (0, 0) s.incNow (b.base + off) (was.1, was.2 + n) }

/-- Add to a saturating 32-bit count. -/
def State.incReg (s : State) (b : Blk) (off : Nat) (n : Nat := 1) : State := (s.noteInc b off n).setReg b off (satInc (s.reg b off) n)

/-- Note that bits of a W1C register are set in this tick: a write in the same tick does not clear them (R11). -/
def State.noteSet (s : State) (b : Blk) (off bits : Nat) : State :=
  { s with setNow := FMap.put 0 s.setNow (b.base + off) (FMap.look 0 s.setNow (b.base + off) ||| BitVec.ofNat 32 bits) }

/-- A power domain's state; after reset domain 11 of every present panel is ON and every other OFF (R402). -/
def State.dom (s : State) (p i : Nat) : Dom :=
  FMap.look { st := if i = 11 ∧ p < s.fuses.panels then .on else .off } s.doms (12 * p + i)

/-- Replace a power domain's state. -/
def State.setDom (s : State) (p i : Nat) (d : Dom) : State :=
  { s with doms := FMap.put { st := if i = 11 ∧ p < s.fuses.panels then .on else .off } s.doms (12 * p + i) d }

/-- Whether a domain is ON. -/
def domOn (s : State) (p i : Nat) : Bool := (s.dom p i).st == .on

/-- The encoding of BLK_STATE.POWER (R372). -/
def DomSt.code : DomSt → Nat
  | .off => 0 | .starting => 1 | .on => 2 | .stopping => 3

/-- BLK_STATE.POWER of a block: always 2 where no domain holds it (R372, log entry 4). -/
def blkPower (s : State) (b : Blk) : Nat :=
  match b.domain with
  | none => 2
  | some (p, i) => (s.dom p i).st.code

/-- Whether a block is visible: its panel is present and, for a stream block, its slot enabled (R4, R22). -/
def blkPresent (s : State) (b : Blk) : Bool :=
  match b with
  | .str p c => slotEnabled s p c
  | .hbm p st => decide (p < s.fuses.panels) && decide (st < 3)
  | _ => match b.panel? with
    | some p => decide (p < s.fuses.panels)
    | none => true

/-- Count an event in a generic counter of a block (R373), saturating. -/
def State.count (s : State) (b : Blk) (ix : Nat) : State :=
  { s with cnt := FMap.put 0 s.cnt (b.base + ix) (Nat.min (FMap.look 0 s.cnt (b.base + ix) + 1) 0xFFFFFFFF) }

/-- A write that a rule gives no effect, or of a reserved encoding: counter 2 (R373). -/
def State.countNoEffect (s : State) (b : Blk) : State := s.count b 2

/-- A block's registers can be written: it is present and its domain is ON (R4, R22, R374). -/
def writable (s : State) (b : Blk) : Bool := blkPresent s b && blkPower s b == 2

/-- A plain write of a register: its RW and W1C fields take the value, except a reserved encoding, which is counted (R9, R12, R373);
a W1C bit that this tick has set stays (R11). -/
def State.writeReg (s : State) (b : Blk) (off : Nat) (w : Word) : State :=
  let fs := b.fields off
  let s1 := s.setRegN b off (writeFields fs (s.regN b off) (keepNew fs w.toNat (FMap.look 0 s.setNow (b.base + off)).toNat))
  if hasReserved fs w.toNat then s1.countNoEffect b else s1

/-- An effect of a write on a block: none while the block is absent or its domain is not ON (R4, R22, R374). -/
def onBlock (s : State) (b : Blk) (f : State → State) : State := if writable s b then f s else s

/-! ## Event recorders: triggers (R467, R469, R471) -/

/-- A recorder's block: that of panel r, or of the package for r = 8. -/
def evrBlk (r : Nat) : Blk := if r = 8 then .evrPkg else .evr r

/-- The event recorders of the package: its present panels and the package recorder. -/
def recorders (s : State) : List Nat := List.range s.fuses.panels ++ [8]

/-- A trigger reaches a recorder: a frozen recorder, or one that is taking a record, misses it, and the next record says how many were
missed before it (R468, R469, R471). -/
def trigger (s : State) (r bit typ blkBit inst : Nat) : State :=
  let b := evrBlk r
  let e := FMap.look {} s.evrs r
  if !s.regBit b 0x44 bit || blkPower s b != 2 then s
  else if e.frozen || e.pending.isSome then
    { s.incReg b 0x54 with evrs := FMap.put {} s.evrs r { e with merged := Nat.min (e.merged + 1) 255 } }
  else { s with evrs := FMap.put {} s.evrs r { e with pending := some ⟨s.time, s.ptc, bit, typ, blkBit, inst, e.merged⟩, merged := 0 } }

/-- The recorder whose scope holds a block (R467); a VFN block is in no recorder's scope. -/
def scopeOf : Blk → Option Nat
  | .vfn _ => none
  | b => some (b.panel?.getD 8)

/-- Trigger 0 or 1 for a bit of a block. -/
def triggerBlk (s : State) (b : Blk) (bit blkBit : Nat) : State :=
  match scopeOf b with
  | none => s
  | some r => trigger s r bit b.typ blkBit b.instNo

/-! ## Errors, causes, stop requests -/

/-- The stop-class bits that are pending in a BLK_ERR word at a BAR0 address (R456, R457); for an NI block only
those raised for the job's own lot (R321). -/
def stopBitsAt (s : State) (addr : Nat) (w : Word) : Nat :=
  match blockAt addr with
  | some (b, 0x14) =>
    (match b with
      | .ni p => w.toNat &&& (FMap.look 0 s.niOwn p).toNat
      | _ => w.toNat) &&& b.stopBits
  | _ => 0

/-- FLT_STATE.REQ: some stop request of the package is pending (R456). -/
def stopReq (s : State) : Bool := s.regs.any fun e => stopBitsAt s e.1 e.2 != 0

/-- The order of R463 among requests of one tick, lowest first. -/
def stopKey (b : Blk) (n : Nat) : Nat :=
  (((b.panel?.getD 0) * 2 + b2n b.panel?.isSome) * 512 + b.page) * 32 + n

/-- The FLT_FIRST word of a request (R484). -/
def stopWord (b : Blk) (n : Nat) : Word :=
  BitVec.ofNat 32 (2 ^ 31 + (b.panel?.getD 0) * 2 ^ 28 + b2n b.panel?.isNone * 2 ^ 27 + b.instNo * 2 ^ 18 + n * 2 ^ 13 + b.typ)

/-- The order key of a recorded FLT_FIRST word: its page follows from TYPE and INSTANCE. -/
def stopKeyOf (w : Word) : Nat :=
  let v := w.toNat
  let typ := bits v 0 8
  let inst := bits v 18 9
  let pkg := bitOf v 27
  let page :=
    if pkg then typ - 1
    else if typ = 0x30 then 64 + inst
    else if typ ≤ 0x24 then typ - 0x20
    else if typ = 0x25 then 5 + inst
    else if typ ≤ 0x27 then typ - 0x26 + 8
    else if typ = 0x28 then 10 + inst % 4
    else typ - 0x29 + 14
  ((bits v 28 3 * 2 + b2n (!pkg)) * 512 + page) * 32 + bits v 13 5

/-- A stop request is raised: FLT_FIRST records the first after the last CLEAR (R463), and the time since which
a request is pending is kept for R461. -/
def raiseStop (s : State) (b : Blk) (n : Nat) : State :=
  let f := s.flt
  let f1 := if stopReq s then f else { f with reqSince := some s.time.toNat }
  let record := { f1 with first := some (stopWord b n), firstAt := s.wall, firstPtc := s.ptc, firstTime := s.time }
  { s with flt := match f.first with
    | none => record
    | some w => if f.firstAt = s.wall ∧ stopKey b n < stopKeyOf w then record else f1 }

/-- Set one BLK_ERR bit (R372, R373): BLK_ERR_FIRST, generic counter 0, trigger 0, and the stop request of a
stop-class bit (R456). `own` is false only for an NI fault of another lot (R457). -/
def raiseErr (s : State) (b : Blk) (n : Nat) (own : Bool := true) : State :=
  let old := s.regN b 0x14
  let fresh := old = 0 ∨ (FMap.look 0 s.faultAt (b.base + 0x1C) = s.wall + 1 ∧ n < s.regN b 0x1C % 32)
  let s0 := if bitOf b.stopBits n && own then raiseStop s b n else s
  let s1 := (s0.noteSet b 0x14 (2 ^ n)).setRegN b 0x14 (old ||| 2 ^ n)
  let s2 := if fresh then { s1.setRegN b 0x1C (2 ^ 31 + n) with faultAt := FMap.put 0 s1.faultAt (b.base + 0x1C) (s.wall + 1) } else s1
  let s3 := match b with
    | .ni p => if own then { s2 with niOwn := FMap.put 0 s2.niOwn p (FMap.look 0 s2.niOwn p ||| BitVec.ofNat 32 (2 ^ n)) } else s2
    | _ => s2
  triggerBlk (s3.count b 0) b 0 n

/-- Set one BLK_IRQ_CAUSE bit (R372, R373): generic counter 1, trigger 1. -/
def raiseIrq (s : State) (b : Blk) (n : Nat) : State :=
  triggerBlk (((s.noteSet b 0x20 (2 ^ n)).setRegN b 0x20 (s.regN b 0x20 ||| 2 ^ n)).count b 1) b 1 n

/-- Write a fault record whose VALID bit is bit 31 of the register at `off`, when it is the first; a fault also replaces a record of the
same tick that it comes before (`key` against `oldKey`). -/
def recordFirst (s : State) (b : Blk) (off key oldKey : Nat) (write : State → State) : State :=
  if !s.regBit b off 31 || (FMap.look 0 s.faultAt (b.base + off) == s.wall + 1 && key < oldKey) then
    let s1 := write s
    { s1 with faultAt := FMap.put 0 s1.faultAt (b.base + off) (s.wall + 1) }
  else s

/-- A fault of the NUM, SA, ENG or SKN block of a panel (R146, R174, R221, R259): the BLK_ERR bit, and the record of
the lowest core and then the lowest code. `info` is the INFO register, absent in NUM. -/
def panelFault (s : State) (b : Blk) (code core extra : Nat) (info : Option Nat) : State :=
  let ptcOff := match b with
    | .skn _ => 0x50
    | _ => 0x48
  let off := match b with
    | .skn _ => 0x48
    | .num _ => 0x44
    | _ => 0x40
  let w := s.regN b off
  let s1 := recordFirst s b off (core * 8 + code) (bits w 0 9 * 8 + bits w 16 3) fun s =>
    let s := (s.setRegN b off (2 ^ 31 + code * 2 ^ 16 + extra + core)).setReg64 b ptcOff s.ptc.toNat
    match info with
    | none => s
    | some i => s.setRegN b (off + 4) i
  raiseErr s1 b (code - 1)

/-- A numeric fault (R146): 1 = LS128_SAT, 2 = SPECIAL_INPUT, 3 = T1_INVALID. -/
def numFault (s : State) (k code : Nat) : State := panelFault s (.num (k / 288)) code (k % 288) 0 none

/-- Set a sticky bit of a core in NUM_SATk (0x80), NUM_SPECIALk (0xC0) or NUM_T1INVk (0x100) (R147). -/
def stickyBit (s : State) (k base : Nat) : State :=
  let b := Blk.num (k / 288)
  let off := base + 4 * (k % 288 / 32)
  (s.noteSet b off (2 ^ (k % 288 % 32))).setRegN b off (s.regN b off ||| 2 ^ (k % 288 % 32))

/-- NUM_CTRL as events of this tick see it: a write takes effect in the plan tick after it (R145). -/
def numCtrl (s : State) (p : Nat) : Nat := (FMap.look (s.reg (.num p) 0x40) s.numWas p).toNat

/-! ## Messages -/

/-- Send a message. -/
def send (s : State) (m : Msg) : State := { s with sent := m :: s.sent }

/-- A PlatformEventMessage to the endpoint that last issued SetEventReceiver (R478). -/
def platformEvent (s : State) (sensor : Nat) : State :=
  match s.mgmt.receiver with
  | none => s
  | some (_, eid) => send s (.platformEvent eid sensor)

/-! ## Hold requests (R91, R96) -/

/-- A hold request joins the current hold or starts one; while the package is stopped it is discarded (R96). From the request to the
freeze pass 24 plan clock periods (R92): at PTC value p that is p + 24, since PTC advances in each of them (R91); a request raised while
the package is resuming freezes it so at least one tick after the resumption (R96, log entry 131). -/
def raiseHold (s : State) (cause panel : Nat) (other : Bool) (unit : Nat) (items : List LateItem) : State :=
  if s.flt.stopped then s
  else
    let req : HoldReq := ⟨cause, panel, other, unit, s.ptc.toNat, s.wall, items.map fun i => (i, false)⟩
    let s1 := s.setRegN .hold 0x48 (s.regN .hold 0x48 ||| 2 ^ cause)
    let fresh : Hold := { reqs := [req], freezeAt := s.wall + 24 }
    match s.hold with
    | none => { s1 with hold := some fresh }
    | some h =>
      if h.broadcast.isNone || h.broadcast == some s.wall then
        let s2 := { s1 with hold := some { h with reqs := h.reqs ++ [req], broadcast := none } }
        if cause = 6 ∧ h.frozen then raiseIrq s2 .hold 0 else s2
      else
        { s1 with nextHold := match s.nextHold with
          | none => some fresh
          | some h2 => some { h2 with reqs := h2.reqs ++ [req] } }

/-- Whether PTC advances: no hold is frozen, the package is not stopped and no setting change runs. -/
def ptcRuns (s : State) : Bool :=
  !(s.hold.any (·.frozen)) && !s.flt.stopped && s.clk.switching.isNone

/-! ## Row counters (R263 to R271) -/

/-- A counter named by a CTR field on a core: local, or shared of the core's panel. -/
def counterOf (s : State) (k ctr : Nat) : RowCtr :=
  if bitOf ctr 12 then FMap.look {} s.shared (4096 * (k / 288) + ctr % 4096)
  else FMap.look {} (s.core k).counters (ctr % 64)

/-- Replace a counter. -/
def setCounter (s : State) (k ctr : Nat) (v : RowCtr) : State :=
  if bitOf ctr 12 then { s with shared := FMap.put {} s.shared (4096 * (k / 288) + ctr % 4096) v }
  else s.modCore k fun c => { c with counters := FMap.put {} c.counters (ctr % 64) v }

/-- The value of a counter that an issue check of this tick sees: that of the end of the tick before (R267), since the operations of a
tick are applied at its end. -/
def counterSeen (s : State) (k ctr : Nat) : Int := (counterOf s k ctr).value.toInt

/-- A row counter operation reaches its counter in this tick (R264); it is applied at the end of the tick, in the order of R267. -/
def counterOp (s : State) (o : RowOp) : State := { s with rowOps := s.rowOps ++ [o] }

/-- The place of an operation in the order of R267: its source (1 = landed transfer, 2 = completion signal, 3 = SIGNAL, 4 = host), the
virtual core that receives or issues it, and for a completion signal the issue order. -/
def rowOrder (source vcore issued : Nat) : Nat := (source * 2048 + vcore) * 2 ^ 64 + issued

/-- The order of R288 among counter faults of one tick: local counters first, by core and index. -/
def rowFaultKey (k ctr : Nat) : Nat := if bitOf ctr 12 then 2 ^ 24 + ctr % 4096 else (k % 288) * 64 + ctr % 64

/-- What an operation makes of a counter's value, exactly (R264). -/
def rowResult (op : Nat) (before value : Int) : Int :=
  match op with
  | 0 => before + value
  | 1 => before - value
  | _ => value

/-- The fault of an operation with this result (R264, R288): 1 = ROWCTR_UNDERFLOW, 2 = ROWCTR_OVERFLOW, 0 = none. -/
def rowFault (op : Nat) (res : Int) : Nat := if op = 0 ∧ res > 2 ^ 31 - 1 then 2 else if op = 1 ∧ res < 0 then 1 else 0

/-- Apply an operation to its counter (R264, R265): a faulting one leaves the value. -/
def applyRowOp (s : State) (o : RowOp) : State :=
  let b := Blk.row (o.core / 288)
  let r := counterOf s o.core o.ctr
  let res := rowResult o.op r.value.toInt o.value.toInt
  let code := rowFault o.op res
  let s0 := setCounter s o.core o.ctr ⟨if code = 0 then BitVec.ofInt 32 res else r.value, o.kind, o.src⟩
  if code = 0 then s0
  else
    let w := s0.regN b 0x54
    let oldKey := if bitOf w 30 then 2 ^ 24 + bits w 0 12 else bits w 18 9 * 64 + bits w 0 6
    let s1 := recordFirst s0 b 0x54 (rowFaultKey o.core o.ctr) oldKey fun s =>
      let shared := bitOf o.ctr 12
      ((s.setRegN b 0x54 (2 ^ 31 + b2n shared * 2 ^ 30 + o.kind * 2 ^ 27 + (if shared then 0 else (o.core % 288) * 2 ^ 18)
        + code * 2 ^ 16 + (if shared then o.ctr % 4096 else o.ctr % 64))).setReg b 0x58 o.src).setReg64 b 0x5C s.ptc.toNat
    raiseErr s1 b (code - 1)

/-- Put an operation in its place (R267). -/
def placeRowOp (o : RowOp) : List RowOp → List RowOp
  | [] => [o]
  | x :: xs => if o.order ≤ x.order then o :: x :: xs else x :: placeRowOp o xs

/-- The operations of a tick in the order of R267; those of one place stay as they came. -/
def sortRowOps (ops : List RowOp) : List RowOp := ops.foldr placeRowOp []

/-- A stream that waits for a counter value that the counter has now is woken (R270). -/
def wakeMet (s : State) (k : Nat) (st : Stream) : Stream :=
  match st.waiting with
  | some (ctr, need) => if need ≤ (counterOf s k ctr).value.toInt then { st with waiting := none } else st
  | none => st

/-- The end of a tick for the row counters: the writes of ROW_VALUE of the tick before are SETs by the host, and come last (R272); the
streams are woken by the values that the tick ends with (R267, R270). -/
def rowCountersTick (s : State) (hostSrc : Word) : State :=
  let sets := s.rowSets.filter fun e => decide (e.1 < s.wall)
  let ops := sortRowOps s.rowOps ++ sets.map fun (_, k, ctr, v) => (⟨rowOrder 4 0 0, k, ctr, 2, v, 4, hostSrc⟩ : RowOp)
  let s1 := ops.foldl applyRowOp { s with rowOps := [], rowSets := s.rowSets.filter fun e => !decide (e.1 < s.wall) }
  if ops.isEmpty then s1
  else { s1 with cores := s1.cores.map fun e => (e.1, { e.2 with stream := wakeMet s1 e.1 e.2.stream }) }

/-- Every counter of the package becomes 0 and has no waiters (R266). -/
def clearCounters (s : State) : State :=
  { s with
    shared := []
    rowSets := []
    rowOps := []
    cores := s.cores.map fun e => (e.1, { e.2 with counters := [], stream := { e.2.stream with waiting := none } }) }

/-! ## Interrupt conditions (R376 to R378) -/

/-- Whether an error or cause register at this BAR0 address makes its block's host pending signal 1 (R376). -/
def pendingAt (s : State) (addr : Nat) (w : Word) : Bool :=
  match blockAt addr with
  | some (b, 0x14) => blkPresent s b && blkPower s b == 2 && (w &&& ~~~(s.reg b 0x18)) != 0
  | some (b, 0x20) => blkPresent s b && blkPower s b == 2 && (w &&& ~~~(s.reg b 0x24)) != 0
  | _ => false

/-- The PF interrupt condition: HOST_SUMMARY is not 0 (R376, R377). -/
def pfCondition (s : State) : Bool := s.regs.any fun e => pendingAt s e.1 e.2

/-- A virtual function's interrupt condition (R378). -/
def vfCondition (s : State) (v : Nat) : Bool := (s.reg (.vfn v) 0x20 &&& ~~~(s.reg (.vfn v) 0x24)) != 0

/-- The interrupt condition of a function: 0 = PF. -/
def fnCondition (s : State) (fn : Nat) : Bool := if fn = 0 then pfCondition s else vfCondition s fn

/-- The Vector Control mask bit of a function's MSI-X vector 0 (R380, R382). -/
def vectorMasked (s : State) (fn : Nat) : Bool := s.regBit (if fn = 0 then .host else .vfn fn) 0x200C 0

/-- A message of a function is due (R377): with MSI-X disabled none is sent; a masked one sets the pending bit; none is sent in D3hot. -/
def messageDue (s : State) (fn : Nat) : State :=
  let f := FMap.look {} s.fns fn
  if !f.msixEnable then s
  else if f.funcMask || vectorMasked s fn then { s with fns := FMap.put {} s.fns fn { f with pba := true } }
  else if f.d3hot then s
  else send s (.msix fn)

/-- Follow a function's interrupt condition: a rise makes a message due (R377, R378). -/
def settleFn (s : State) (fn : Nat) : State :=
  let f := FMap.look {} s.fns fn
  let now := fnCondition s fn
  if now = f.condition then s
  else
    let s1 := { s with fns := FMap.put {} s.fns fn { f with condition := now } }
    if now then messageDue s1 fn else s1

/-- Follow the interrupt conditions of the PF and of every VF. -/
def settle (s : State) : State := (List.range 65).foldl settleFn s

/-! ## The wrapper of every meaning -/

/-- Release the latch of a function (R363). -/
def dropLatch (fn : Nat) (s : State) : State :=
  let f := FMap.look {} s.fns fn
  { s with fns := FMap.put {} s.fns fn { f with latch := none } }

/-- The package runs: PERST_N deasserted (R493), the test strap low (R490), no rail out of range since (R494). -/
def Live (s : State) : Bool := !s.pins.perst && !s.pins.straps.test && !s.pins.spoiled

/-- A command's effect `f`, with the interrupt conditions followed afterwards. Once a rail has left its range nothing is
guaranteed (R494); under PERST_N (R420, R493) or in the manufacturing test (R490) the command does nothing. -/
def act (s : State) (f : State → State) : Host.Outcome State Fault Refusal :=
  if s.pins.perst || s.pins.straps.test then .next s
  else if s.pins.spoiled then .fault .supplyNoGuarantee
  else .next (settle (f s))

/-- The same for a command that is an access of function fn (0 = PF, v = VF v, 65 + p = a hart of panel p), which releases its latch
(R363, log entry 148). -/
def actBy (fn : Nat) (s : State) (f : State → State) : Host.Outcome State Fault Refusal := act s fun s => f (dropLatch fn s)

end Sys2Proof.Machine
end

