-- ==== Sys2Proof/Machine/Tiers.lean ====
section
/-! DEFINITION. The memory tiers: HBM address map and controller timing (R231 to R236), stash addresses (R242, R244), and
when a stack is in PLANNED mode. -/

namespace Sys2Proof.Machine

/-- Fifteenths of a nanosecond in a plan clock period: 1.5, 1.25, 1.0 GHz (R8, R397); while the plan clocks are
stopped for a setting change, one nanosecond of TIME. -/
def periodFifteenths (s : State) : Nat :=
  if s.clk.switching.isSome then 15 else match s.clk.set with
    | 0 => 10
    | 1 => 12
    | _ => 15

/-- Wall time in ns as plan clock periods of the setting in force, rounded up (R236, R501). -/
def nsToPeriods (s : State) (ns : Nat) : Nat :=
  match s.clk.set with
  | 0 => ceilDiv (ns * 15) 10
  | 1 => ceilDiv (ns * 15) 12
  | _ => ns

/-- Banks of a pseudo-channel (R231). -/
def banks (s : State) : Nat := if s.fuses.hbm3e then 48 else 32
/-- All-bank refresh time in ns (R231). -/
def refreshNs (s : State) : Nat := if s.fuses.hbm3e then 350 else 260
/-- tG of R236. -/
def tG (s : State) : Nat := nsToPeriods s (if s.fuses.hbm3e then 8 else 10)
/-- tRC of R236. -/
def tRC (s : State) : Nat := nsToPeriods s 48
/-- tL of R236. -/
def tL (s : State) : Nat := nsToPeriods s 100
/-- Refresh window length of R236. -/
def windowLen (s : State) : Nat := nsToPeriods s (if s.fuses.hbm3e then 720 else 540)
/-- Largest HBM_REF_PERIOD of R236. -/
def largestRefPeriod (s : State) : Nat := nsToPeriods s 3900

/-- Bytes populated in a panel window (R232). -/
def populated (s : State) : Nat := if s.fuses.hbm3e then 0x1B00000000 else 0xC00000000

/-- Whether a device address is in the populated part of a present panel's window (R233). -/
def hbmAddrOk (s : State) (a : Nat) : Bool :=
  decide (a / 0x2000000000 < s.fuses.panels) && decide (a % 0x2000000000 < populated s)

/-- Whether an extent lies in one panel window and is populated (R233). -/
def hbmRangeOk (s : State) (a n : Nat) : Bool :=
  n == 0 || (hbmAddrOk s a && hbmAddrOk s (a + n - 1) && a / 0x2000000000 == (a + n - 1) / 0x2000000000)

/-- Panel, stack, pseudo-channel and bank of a device address (R232). -/
def hbmPlace (s : State) (a : Nat) : Nat × Nat × Nat × Nat :=
  let g := a % 0x2000000000 / 256
  let q := g / 3
  (a / 0x2000000000, g % 3, q % 32, q / 32 % banks s)

/-- The die-to-die interfaces by position (R14, R102). -/
def d2dPairs : List (Nat × Nat) := [(0, 1), (1, 2), (2, 3), (4, 5), (5, 6), (6, 7), (0, 4), (1, 5), (2, 6), (3, 7)]

/-- The position of the interface between two panels that are next to each other. -/
def d2dBetween (p q : Nat) : Option Nat := d2dPairs.findIdx? fun e => e == (p, q) || e == (q, p)

/-- The port index of what comes to panel `dst` from another panel: 2,048 + m for the interface m by which it arrives, which the manual
does not give for panels that are not next to each other (R102, log entry 45). -/
def inboundPort (src dst : Nat) : Nat := 2048 + (d2dBetween src dst).getD (Config.d2dEntry src dst)

/-- The state of HBM stack `st` of panel `p`. -/
def State.hbmStack (s : State) (p st : Nat) : HbmStack := FMap.look {} s.hbmStacks (3 * p + st)

/-- Replace a stack's state. -/
def State.setHbmStack (s : State) (p st : Nat) (h : HbmStack) : State :=
  { s with hbmStacks := FMap.put {} s.hbmStacks (3 * p + st) h }

/-- HBM_CTRL.MODE is PLANNED. -/
def planned (s : State) (p st : Nat) : Bool := s.regBit (.hbm p st) 0x40 0

/-- Every stack of the package, as panel and stack. -/
def allStacks (s : State) : List (Nat × Nat) :=
  (List.range s.fuses.panels).flatMap fun p => [(p, 0), (p, 1), (p, 2)]

/-- Some stack is PLANNED. -/
def anyPlanned (s : State) : Bool := (allStacks s).any fun e => planned s e.1 e.2

/-- Some core runs a timed segment (R234). -/
def timedRuns (s : State) : Bool := s.cores.any fun e => e.2.stream.st == .running && (e.2.stream.tr.timed || e.2.stream.old.any (·.timed))

/-- Bytes of a stash stack (R32, R242). -/
def stashSize : Nat := 0x4000000000

/-- Panel of a stash address (R244). -/
def stashPanel (a : Nat) : Nat := a / stashSize

/-- Stash state of a panel. -/
def State.stash (s : State) (p : Nat) : Stash := FMap.look {} s.stashes p

/-- Replace a panel's stash state. -/
def State.setStash (s : State) (p : Nat) (x : Stash) : State := { s with stashes := FMap.put {} s.stashes p x }

end Sys2Proof.Machine
end

