-- ==== Sys2Proof/Machine/Operands.lean ====
section
/-! DEFINITION. The operand forms of a descriptor: its fields (R37 to R43), effective bases (R44), address checks (R45, R233,
R244, R253), parameter fields (R177, R184, R206), and reads and writes of operands in the skein with ECC injection (R229, R259). -/

namespace Sys2Proof.Machine

/-! ## Fields -/

/-- Word i of a descriptor. -/
def dw (d : Desc) (i : Nat) : Nat := (d.getD i 0).toNat
/-- ENG (R37). -/
def dEng (d : Desc) : Nat := bits (dw d 0) 8 4
/-- OPC (R37). -/
def dOpc (d : Desc) : Nat := bits (dw d 0) 0 8
/-- TAG (R37). -/
def dTag (d : Desc) : Nat := bits (dw d 0) 16 16
/-- FLAGS.SATFAULT (R38). -/
def dSatFault (d : Desc) : Bool := bitOf (dw d 0) 15
/-- FLAGS.INPUT (R38). -/
def dInput (d : Desc) : Bool := bitOf (dw d 0) 14
/-- FLAGS.REINTERP (R38). -/
def dReinterp (d : Desc) : Bool := bitOf (dw d 0) 12
/-- The four dependency tags (R37). -/
def dDeps (d : Desc) : List Nat := [bits (dw d 2) 0 16, bits (dw d 2) 16 16, bits (dw d 3) 0 16, bits (dw d 3) 16 16]

/-- An operand field (R39). -/
structure OpField where
  use : Nat
  region : Nat
  fmt : Nat
  space : Nat
  base : Nat
  rsvd : Nat
  sshift : Nat
  extent : Nat
  stride1 : Int
  stride0 : Int
deriving DecidableEq, Repr

/-- Operand field k (R37, R39). -/
def fld (d : Desc) (k : Nat) : OpField :=
  let a := dw d (4 + 4 * k)
  let b := dw d (5 + 4 * k)
  let c := dw d (6 + 4 * k)
  let e := dw d (7 + 4 * k)
  { use := bits b 30 2, region := bits b 24 6, fmt := bits b 20 4, space := bits b 16 4
    base := a + 2 ^ 32 * bits b 0 16, rsvd := bits c 28 4, sshift := bits c 24 4, extent := bits c 0 24
    stride1 := signed 16 (bits e 16 16), stride0 := signed 16 (bits e 0 16) }

/-- The words of field k have no bit outside the four masks. -/
def paramsIn (d : Desc) (k m0 m1 m2 m3 : Nat) : Bool :=
  let ok (i m : Nat) : Bool := dw d (4 + 4 * k + i) &&& (0xFFFFFFFF - m) == 0
  ok 0 m0 && ok 1 m1 && ok 2 m2 && ok 3 m3

/-- Field k is NONE with all bits 0 (R40). -/
def zeroField (d : Desc) (k : Nat) : Bool := paramsIn d k 0 0 0 0

/-- The BASE bits and alignments that R41 and R42 require of a space. -/
def baseOk (space base extent : Nat) : Bool :=
  match space with
  | 0 => base % 64 == 0 && decide (base < 2 ^ 22)
  | 1 => base % 64 == 0
  | 2 => base % 4096 == 0 && decide (base < 2 ^ 44) && extent % 64 == 0
  | 3 => decide (base < 2 ^ 28) && !bitOf base 16
  | 4 => !bitOf base 16
  | 5 => base % 64 == 0
  | _ => false

/-- The static form of an addressing operand: USE, an accepted space, EXTENT, REGION, rsvd and BASE bits (R39 to R43). -/
def addressing (f : OpField) (use : Nat) (spaces : List Nat) : Bool :=
  f.use == use && f.rsvd == 0 && f.extent != 0 && spaces.contains f.space && (f.space == 0 || f.region == 0) && baseOk f.space f.base f.extent

/-- A LOCAL operand of one USE and one of the formats. -/
def localOp (f : OpField) (use : Nat) (fmts : List Nat) : Bool := addressing f use [0] && fmts.contains f.fmt

/-- Every format code. -/
def anyFmt : List Nat := List.range 16

/-- A CTR field names a counter: a local number has bits [11:6] zero (R47). -/
def ctrOk (v : Nat) : Bool := bitOf v 12 || bits v 6 6 == 0

/-- A counter operation's VALUE: not negative for ADD and SUB; OP 3 is reserved (R47). -/
def sigOk (op value : Nat) : Bool := op == 2 || (decide (op < 2) && decide (value < 2 ^ 31))

/-- The signal of a transfer: SIG_EN, SIG_OP, CTR, VALUE (R184, R206). -/
def sigOf (en op ctr value : Nat) : Option Sig := if en = 1 then some ⟨op, ctr, BitVec.ofNat 32 value⟩ else none

/-- The rounding parameters where R177 places them. -/
def rModeOf (d : Desc) : Nat := bits (dw d 12) 16 2
/-- NOSAT (R177). -/
def noSatOf (d : Desc) : Bool := bitOf (dw d 12) 18
/-- LSQ (R177). -/
def lsqOf (d : Desc) : Int := signed 11 (bits (dw d 13) 0 11)

/-! ## Effective bases (R44) -/

/-- The effective base of an operand as an exact number: a byte offset or address, a beat offset in CORE and RANK spaces. R44 does not say
whether the offset of a CORE or RANK operand (16 bits) or of a HOST operand (40 bits) wraps: the sum is exact, and one that leaves the
space is REGION_BOUNDS (log entry 138, DESIGN CHOICE). -/
def effBase (s : State) (k : Nat) (f : OpField) (i0 i1 : Nat) : Int :=
  let step : Int := (f.stride0 * i0 + f.stride1 * i1) * 2 ^ f.sshift
  let b := Blk.str (k / 288) (k % 288)
  match f.space with
  | 0 => f.base + step * 64
  | 1 => f.base + s.reg64 b 0x60 + step * 64
  | 2 => f.base + s.reg64 b 0x68 + step * 64
  | 3 | 4 => (f.base % 2 ^ 16 : Nat) + step
  | _ => (f.base % 2 ^ 40 : Nat) + step * 64

/-- Region slot j of a core (R55). -/
def regionOf (c : Core) (j : Nat) : Region := FMap.look {} c.regions j

/-- The host buffer table entry n: its address, length in bytes and function, when VALID (R368). -/
def hostBuf (s : State) (n : Nat) : Option (Nat × Nat × Nat) :=
  let o := 0x1000 + 16 * n
  let ctrl := s.regN .host (o + 12)
  if bitOf ctrl 31 then some (s.reg64 .host o, s.regN .host (o + 8) * 4096, ctrl % 128) else none

/-- The first entry of a rank (kind 0) or forwarding (kind 1) table range that holds a rank (R311, R312). -/
def tableEntry (s : State) (kind base count rank : Nat) : Option (List Word) :=
  ((List.range count).map fun i => FMap.look [0, 0, 0, 0] s.rankTables (8192 * kind + base + i)).find? fun e =>
    bitOf (e.getD 0 0).toNat 31 && (e.getD 0 0).toNat % 2 ^ 20 == rank

/-- The rank table entry that R314 finds for a rank in the job context of FAB_JOB, unless it is the context's own. -/
def rankEntry (s : State) (rank : Nat) : Option (List Word) :=
  let job := s.regN .fab 0x48
  let x := job % 4
  let rt := s.regN .fab (0x58 + 16 * x)
  if bitOf job 31 && rank != s.regN .fab (0x54 + 16 * x) % 2 ^ 20 then tableEntry s 0 (rt % 2 ^ 13) (bits rt 16 14) rank else none

/-- Whether an operand's effective range is one the stream accepts (R45, R55, R233, R244, R253, R314). -/
def rangeOk (s : State) (k : Nat) (f : OpField) (eff : Int) : Bool :=
  let n := 64 * f.extent
  match f.space with
  | 0 =>
    let r := regionOf (s.core k) f.region
    r.length != 0 && decide ((r.base : Int) ≤ eff) && decide (eff + n ≤ (r.base + 64 * r.length : Nat)) && decide (eff + n ≤ 0x300000)
  | 1 => decide (0 ≤ eff) && hbmRangeOk s eff.toNat n
  | 2 => decide (0 ≤ eff) && decide (eff + n ≤ 2 ^ 44) && decide (stashPanel eff.toNat < s.fuses.panels)
      && decide (stashPanel (eff.toNat + n - 1) = stashPanel eff.toNat)
  | 3 => decide (0 ≤ eff) && decide (eff + f.extent ≤ 49152)
  | 4 => decide (0 ≤ eff) && decide (eff + f.extent ≤ 49152) && (rankEntry s (f.base / 2 ^ 28)).isSome
  | _ => match hostBuf s (f.base / 2 ^ 40) with
    | none => false
    | some (_, len, _) => decide (0 ≤ eff) && decide (eff + n ≤ len)

/-! ## The two ports of a bank (R224, R225, R229, R259) -/

/-- Flip bits 0 and 1 of the first byte. -/
def flipTwo : List Byte → List Byte
  | [] => []
  | b :: bs => (b ^^^ 3) :: bs

/-- Queue a corrected word for write-back, unless its bank's queue of 4 is full (R229). -/
def queueWriteBack (s : State) (k addr : Nat) (bytes : List Byte) : State :=
  s.modCore k fun c =>
    if (c.wb.filter fun w => w.1 / 64 % 32 == addr / 64 % 32).length < 4 then { c with wb := c.wb ++ [(addr, bytes)] } else c

/-- SKN_FAULT_INFO of a word: reader, beat, word in the beat (R259). -/
def sknInfo (reader addr : Nat) : Nat := reader * 2 ^ 28 + addr / 8 % 8 * 2 ^ 16 + addr / 64 % 32 * 2 ^ 11 + addr / 2048

/-- The landing ports' write of this tick that covers a skein address. -/
def landedOver (s : State) (x : Nat) : Option (Nat × List Byte) := s.landed.find? fun e => decide (e.1 ≤ x) && decide (x < e.1 + e.2.length)

/-- A byte of the skein as an engine port reads it: what landed in this tick is not seen (R225). -/
def portByte (s : State) (x : Nat) : Byte := match landedOver s x with
  | some e => e.2.getD (x - e.1) 0
  | none => Mem.byte s.skein x

/-- `n` bytes of a core's skein as an engine port reads them. -/
def portBytes (s : State) (k off n : Nat) : List Byte := (List.range n).map fun i => portByte s (skAddr k off + i)

/-- A word of a read with a stored error (R229): a single-bit error is corrected, counted and queued for write-back; a double-bit error
raises SKN_UNCORR, and the word is read as stored. -/
def readWordEcc (k reader : Nat) (acc : List Byte × State) (addr : Nat) (word : List Byte) : List Byte × State :=
  let b := Blk.skn (k / 288)
  match FMap.look 0 acc.2.skErr (skAddr k addr / 8) with
  | 0 => (acc.1 ++ word, acc.2)
  | 1 => (acc.1 ++ word, queueWriteBack (acc.2.incReg b 0x44) k addr word)
  | _ => (acc.1 ++ (List.range word.length).map (fun i => Config.skeinAsRead (skAddr k addr) i (word.getD i 0)),
      panelFault acc.2 b 1 (k % 288) 0 (some (sknInfo reader addr)))

/-- The words of a read, one after another. -/
def readWords (k reader : Nat) : Nat → Nat → List Byte → List Byte × State → List Byte × State
  | 0, _, _, acc => acc
  | n + 1, addr, data, acc => readWords k reader n (addr + 8) (data.drop 8) (readWordEcc k reader acc addr (data.take 8))

/-- An armed SKN_INJECT acts on a beat read (R259). -/
def injectBeat (s : State) (k reader off : Nat) (data : List Byte) : List Byte × State :=
  let b := Blk.skn (k / 288)
  let inj := s.regN b 0x5C
  let s1 := s.setRegN b 0x5C (inj % 2 ^ 31)
  if bits inj 9 2 = 0 then (data, queueWriteBack (s1.incReg b 0x44) k off (data.take 8))
  else (flipTwo data, panelFault s1 b 1 (k % 288) 0 (some (sknInfo reader (off - off % 64))))

/-- SKN_INJECT is armed for a core. -/
def injectArmed (s : State) (k : Nat) : Bool :=
  let inj := s.regN (.skn (k / 288)) 0x5C
  bitOf inj 31 && inj % 512 == k % 288

/-- A beat that engine `reader` of a core reads through its engine port; `hit` says that an armed injection acts on it. -/
def readBeat (s : State) (k reader off : Nat) (hit : Bool) : List Byte × State :=
  let data := portBytes s k off 64
  let (bs, s1) := if s.skErr.isEmpty then (data, s) else readWords k reader 8 off data ([], s)
  if hit && injectArmed s k then injectBeat s1 k reader off bs else (bs, s1)

/-- Drop the write-back of a word that a write covers (R229). -/
def cancelWriteBack (s : State) (k off n : Nat) : State :=
  if (s.core k).wb.isEmpty then s
  else s.modCore k fun c => { c with wb := c.wb.filter fun w => !(decide (off ≤ w.1) && decide (w.1 < off + n)) }

/-- Bytes of a core's skein take new values: stored errors there are gone, and so are waiting write-backs. -/
def skWrite (s : State) (k off : Nat) (data : List Byte) : State :=
  let a := skAddr k off
  let errs := if s.skErr.isEmpty then [] else s.skErr.filter fun e => !(decide (a / 8 ≤ e.1) && decide (e.1 < (a + data.length) / 8))
  cancelWriteBack { s with skein := Mem.store s.skein a data, skErr := errs } k off data.length

/-- A write of a core's landing port: engine ports do not see it in this tick (R225). -/
def landWrite (s : State) (k off : Nat) (data : List Byte) : State :=
  let a := skAddr k off
  skWrite { s with landed := s.landed ++ [(a, Mem.bytes s.skein a data.length)] } k off data

/-- A write through an engine port: where the landing port has written in this tick, its data remains (R225). -/
def portWrite (s : State) (k off : Nat) (data : List Byte) : State :=
  if s.landed.isEmpty then skWrite s k off data
  else
    let a := skAddr k off
    skWrite s k off ((List.range data.length).map fun i =>
      if (landedOver s (a + i)).isSome then Mem.byte s.skein (a + i) else data.getD i 0)

/-! ## Elements (R117) -/

/-- The first n elements of an operand's bytes (R117). -/
def elements (w n : Nat) (data : List Byte) : List Nat :=
  let str := leNat data
  (List.range n).map (element w str)

/-- The bytes of an operand of `ext` beats that holds the elements; the bits after the last are zero (R117). -/
def elementBytes (w ext : Nat) (els : List Nat) : List Byte := leBytes (64 * ext) (packElements w els)

/-- A beat of zero bytes. -/
def zeroBeat : List Byte := List.replicate 64 0

/-- The first `n` beats of field i as an operation has read them; a beat that it has not read is zeros. -/
def Op.bytes (o : Op) (i n : Nat) : List Byte := (List.range n).flatMap fun j => FMap.look zeroBeat o.seen (2 ^ 24 * i + j)

/-- The elements of field i as an operation has read them. -/
def Op.els (o : Op) (i : Nat) : List Nat :=
  let f := fld o.desc i
  elements (fmtBits f.fmt) (512 * f.extent / fmtBits f.fmt) (o.bytes i f.extent)

/-- The bytes of an output field's elements. -/
def fieldBytes (d : Desc) (i : Nat) (els : List Nat) : List Byte := elementBytes (fmtBits (fld d i).fmt) (fld d i).extent els

end Sys2Proof.Machine
end

