-- ==== Sys2Proof/Machine/Encodings.lean ====
section
/-! DEFINITION. Which descriptors are valid (R38 to R43, R46, R47, R67, R74, R160 to R163, R176 to R215), and the class,
occupancy and completion of every operation (R59, R60, R151, R166, R167, R179 to R211). -/

namespace Sys2Proof.Machine

/-! ## Static validity -/

/-- The form of an operand that R39 to R43 fix for every operation. -/
def staticOk (f : OpField) : Bool := addressing f f.use [0, 1, 2, 3, 4, 5]

/-- A guard plane count that R123 allows a weight tile. -/
def guardOk (fmt g : Nat) : Bool := planeBase fmt != 0 && decide (g ≤ 4) && (!isIntFmt fmt || g == 0)

/-- Beats of a plane-form weight tile (R128). -/
def weightBeats (fmt g : Nat) : Nat := 8 + 32 * storedPlanes fmt g

/-- Beats of a plane-form activation tile (R129). -/
def actBeats (fmt : Nat) : Nat := 1 + 32 * digitCount fmt

/-- Planes p of a weight tile (R123). -/
def planesOf (fmt g : Nat) : Nat := planeBase fmt + g

/-- Planes of group i (R150). -/
def groupPlanes (fmt g i : Nat) : Nat := Nat.min 8 (planesOf fmt g - 8 * i)

/-- Beats of a drain output (R163); 0: no such output. -/
def drainBeats (fmt cplx : Nat) : Nat :=
  if fmt = 0xE then 0 else if fmt = 0xF then (if cplx = 0 then 512 else 1024) else 4 * fmtBits fmt

/-- The transfer engine's descriptors (R182 to R187, R310). -/
def xfValid (d : Desc) : Bool :=
  let f0 := fld d 0
  let f1 := fld d 1
  let f2 := fld d 2
  match dOpc d with
  | 1 =>
    addressing f0 1 [0, 1, 2, 5] && addressing f1 2 [0, 1, 3, 4, 5] && (f0.space == 0 || f1.space == 0)
    && f0.extent == f1.extent && (f1.space != 4 || f0.extent % 4 == 0)
    && paramsIn d 2 0xE0000000 0 0x1FFF 0xFFFFFFFF && sigOk (bits (dw d 12) 29 2) (dw d 15) && ctrOk (dw d 14)
    && (!dInput d || f0.space != 0)
  | 2 =>
    localOp f0 1 [5] && addressing f1 1 [1] && localOp f2 2 anyFmt && f2.extent % 1024 == 0 && f1.extent % 1024 == 0
    && f0.extent == ceilDiv (f2.extent / 1024) 16
  | 3 =>
    localOp f0 1 [5] && localOp f1 1 anyFmt && addressing f2 2 [1] && f1.extent % 1024 == 0 && f2.extent % 1024 == 0
    && f0.extent == ceilDiv (f1.extent / 1024) 16 && !dInput d
  | 4 => addressing f0 1 [1, 2] && zeroField d 1 && zeroField d 2
  | _ => false

/-- The stitch array's descriptors (R160 to R163). -/
def saValid (d : Desc) : Bool :=
  let f0 := fld d 0
  match dOpc d with
  | 1 =>
    let g := bits (dw d 8) 8 3
    localOp f0 1 anyFmt && guardOk f0.fmt g && decide (8 * bits (dw d 8) 4 2 < planesOf f0.fmt g)
    && f0.extent == weightBeats f0.fmt g && paramsIn d 1 0x731 0 0 0 && zeroField d 2
  | 2 =>
    let w := dw d 12
    let f1 := fld d 1
    let wfmt := bits w 12 4
    let g := bits w 8 3
    let cplx := bits w 20 2
    let acc := bitOf w 3
    let drain := bitOf w 2
    localOp f0 1 anyFmt && digitCount f0.fmt != 0 && f0.extent == actBeats f0.fmt && guardOk wfmt g
    && decide (8 * bits w 4 2 < planesOf wfmt g) && decide (planesOf wfmt g + 8 * digitCount f0.fmt ≤ 56)
    && paramsIn d 2 0x0F37F73F 0x7FF 0xFFFFFFFF 0 && rModeOf d != 3
    && (if drain then
          localOp f1 (if acc then 3 else 2) anyFmt && f1.extent == drainBeats f1.fmt cplx
          && (f1.fmt == 0xF || (!acc && cplx == 0)) && (f1.fmt != 0xF || rModeOf d != 2) && (decide (cplx < 2) || acc)
        else zeroField d 1 && !acc && cplx == 0)
  | _ => false

/-- The rounding parameters of field 2 (R177), with `m15` the bits of word 15 that the operation names. -/
def roundParams (d : Desc) (m12 m15 maxMode : Nat) : Bool :=
  paramsIn d 2 (0x0F070000 + m12) 0x7FF 0xFFFFFFFF m15 && decide (rModeOf d ≤ maxMode)

/-- The vector engine's descriptors (R188 to R194). -/
def veValid (d : Desc) : Bool :=
  let f0 := fld d 0
  let f1 := fld d 1
  let f2 := fld d 2
  let elementwise (fmts : List Nat) (use2 : Nat) : Bool :=
    localOp f0 1 fmts && localOp f1 1 [f0.fmt] && localOp f2 use2 [f0.fmt] && f0.extent == f2.extent && decide (f1.extent ≤ f2.extent)
  match dOpc d with
  | 0x01 | 0x02 | 0x03 | 0x05 | 0x06 => elementwise [0xD, 5] 2
  | 0x81 | 0x82 | 0x83 => elementwise [0xD] 2
  | 0x04 | 0x84 => elementwise [0xD] 3
  | 0x08 | 0x09 | 0x0A | 0x0B | 0x0C | 0x0D | 0x0E => elementwise [5] 2
  | 0x10 | 0x11 | 0x12 | 0x13 | 0x14 | 0x15 | 0x16 | 0x17 =>
    localOp f0 1 [0xD] && localOp f1 2 [0xD] && f0.extent == f1.extent && roundParams d 0 0 1
  | 0x20 =>
    localOp f0 1 anyFmt && localOp f1 2 anyFmt && roundParams d 0 0 2
    && decide (512 * f1.extent / fmtBits f1.fmt * fmtBits f0.fmt ≤ 512 * f0.extent)
  | 0x21 | 0x22 =>
    localOp f0 1 (if dOpc d = 0x21 then [0xD] else [0xD, 5]) && localOp f1 2 [f0.fmt]
    && roundParams d 0 0xFFFF (if dOpc d = 0x21 then 1 else 2) && dw d 15 != 0 && f0.extent == f1.extent * dw d 15
  | _ => false

/-- The shaper's descriptors (R197 to R199). -/
def shValid (d : Desc) : Bool :=
  let f0 := fld d 0
  let f1 := fld d 1
  let f2 := fld d 2
  let w := fmtBits f0.fmt
  let opc := dOpc d
  if opc = 1 then
    let r := dw d 12
    let c := dw d 13
    localOp f0 1 anyFmt && localOp f1 2 [f0.fmt] && (w == 8 || w == 16 || w == 32) && paramsIn d 2 0xFFFF 0xFFFF 0 0
    && r * w % 512 == 0 && c * w % 512 == 0 && r * c * w == 512 * f0.extent && f0.extent == f1.extent
  else if opc = 2 then
    localOp f0 1 anyFmt && localOp f1 2 [f0.fmt] && f0.extent == f1.extent && paramsIn d 2 0 0 0xFFFFFFFF 0xFFFFFFFF
    && 512 * f0.extent % (16 * w) == 0
  else if opc = 3 then
    let rows : Int := dw d 12
    let len := dw d 13
    localOp f0 1 anyFmt && localOp f1 2 [f0.fmt] && paramsIn d 2 0xFFFF 0xFFFF 0xFFFF 0xFFFF
    && decide (len ≤ dw d 14) && decide (len ≤ dw d 15)
    && decide ((f0.extent : Int) = (rows - 1) * dw d 14 + len) && decide ((f1.extent : Int) = (rows - 1) * dw d 15 + len)
  else if 0x10 ≤ opc ∧ opc ≤ 0x14 then
    let g := opc - 0x10
    localOp f0 1 anyFmt && guardOk f0.fmt g && f0.extent == 32 * w && (zeroField d 1 || (localOp f1 1 [0xE] && f1.extent == 8))
    && localOp f2 2 [f0.fmt] && f2.extent == weightBeats f0.fmt g
  else if opc = 0x18 then
    localOp f0 1 anyFmt && digitCount f0.fmt != 0 && f0.extent == 4 * w && (zeroField d 1 || (localOp f1 1 [0xE] && f1.extent == 1))
    && localOp f2 2 [f0.fmt] && f2.extent == actBeats f0.fmt
  else if opc = 0x20 then
    let g := bits (dw d 12) 8 3
    localOp f0 1 anyFmt && localOp f1 2 anyFmt && roundParams d 0x80000700 0 2
    && (if bitOf (dw d 12) 31 then
          digitCount f0.fmt != 0 && g == 0 && f0.extent == actBeats f0.fmt && f1.extent == 4 * fmtBits f1.fmt
        else guardOk f0.fmt g && f0.extent == weightBeats f0.fmt g && f1.extent == 32 * fmtBits f1.fmt)
  else false

/-- The gather/scatter engine's descriptors (R201, R203). -/
def gsValid (d : Desc) : Bool :=
  let f0 := fld d 0
  let f1 := fld d 1
  let f2 := fld d 2
  match dOpc d with
  | 1 => localOp f0 1 [5] && localOp f1 1 anyFmt && localOp f2 2 anyFmt && f2.extent % (16 * f0.extent) == 0
  | 2 => localOp f0 1 [5] && localOp f1 1 anyFmt && localOp f2 3 anyFmt && f1.extent % (16 * f0.extent) == 0
  | 3 =>
    let l := dw d 12
    localOp f0 1 [5] && f0.extent == 1 && localOp f1 3 [0xD] && paramsIn d 2 0x1FFFF 0 0xFFFFFFFF 0xFFFFFFFF
    && decide (16 ≤ l) && decide (l ≤ 65536) && l % 16 == 0 && 16 * f1.extent % l == 0
  | _ => false

/-- The destination of an ADD_SEND as an operand (R206). -/
def sendField (d : Desc) : OpField :=
  { use := 2, region := 0, fmt := 0xF, space := bits (dw d 12) 16 4, base := dw d 14 + 2 ^ 32 * bits (dw d 12) 0 16
    rsvd := 0, sshift := 0, extent := (fld d 0).extent, stride1 := 0, stride0 := 0 }

/-- The collective engine's descriptors (R205, R206, R310). -/
def clValid (d : Desc) : Bool :=
  let f0 := fld d 0
  let f1 := fld d 1
  match dOpc d with
  | 1 => localOp f0 1 [0xF] && localOp f1 1 [0xF] && localOp (fld d 2) 2 [0xF] && f0.extent == f1.extent && f0.extent == (fld d 2).extent
  | 2 =>
    let t := sendField d
    localOp f0 1 [0xF] && localOp f1 3 [0xF] && f0.extent == f1.extent && paramsIn d 2 0xE00FFFFF 0x1FFF 0xFFFFFFFF 0xFFFFFFFF
    && addressing t 2 [3, 4] && (t.space != 4 || f0.extent % 4 == 0) && sigOk (bits (dw d 12) 29 2) (dw d 15) && ctrOk (dw d 13)
  | _ => false

/-- Rows of a sampler descriptor (R208). -/
def spRows (d : Desc) : Nat := 16 * (fld d 0).extent / dw d 13

/-- The sampler's descriptors (R208). -/
def spValid (d : Desc) : Bool :=
  let f0 := fld d 0
  let f1 := fld d 1
  let l := dw d 13
  let kk := dw d 15
  let rows := spRows d
  localOp f0 1 [0xD] && localOp f1 2 [5] && paramsIn d 2 0x0F00FFFF 0x1FFFF 0xFFFFFFFF 0x1FFF
  && decide (16 ≤ l) && decide (l ≤ 65536) && l % 16 == 0 && 16 * f0.extent % l == 0
  && match dOpc d with
    | 1 => f1.extent == ceilDiv rows 16
    | 2 => decide (1 ≤ kk) && decide (kk ≤ 256) && rows * kk % 16 == 0 && f1.extent == rows * kk / 16
    | 3 => decide (l ≤ 4096) && f1.extent == rows * l / 16
    | 4 => decide (1 ≤ kk) && decide (kk ≤ 4096) && (decide (kk ≤ 256) || decide (l ≤ 4096)) && f1.extent == ceilDiv rows 16
    | _ => false

/-- The decompressor's descriptors (R212, R213). -/
def dzValid (d : Desc) : Bool :=
  let f0 := fld d 0
  let w := dw d 12
  let g := bits w 8 3
  let inb := dw d 13
  let eb := fmtBits f0.fmt
  dOpc d == 1 && localOp f0 2 anyFmt && zeroField d 1 && paramsIn d 2 0xC000070F 0xFFFFFF 0 0 && decide (1 ≤ inb) && decide (inb ≤ 2048)
  && match w % 16 with
    | 0 => inb == f0.extent
    | 1 => true
    | 2 => guardOk f0.fmt g && f0.extent == weightBeats f0.fmt g && inb == 40 + 16 * storedPlanes f0.fmt g
    | 3 =>
      if bitOf w 31 then digitCount f0.fmt != 0 && f0.extent == actBeats f0.fmt && inb == 4 * eb + b2n (bitOf w 30)
      else guardOk f0.fmt g && f0.extent == weightBeats f0.fmt g && inb == 32 * eb + 8 * b2n (bitOf w 30)
    | _ => false

/-- The stream-control descriptors (R46, R47). -/
def scValid (d : Desc) : Bool :=
  let rest := zeroField d 1 && zeroField d 2
  match dOpc d with
  | 0 | 3 | 6 | 7 => zeroField d 0 && rest
  | 1 =>
    paramsIn d 0 0x1FFFFFF 0x1FFF 0xFFFFFFFF 0 && decide (1 ≤ dw d 5) && decide (dw d 5 ≤ 4096) && dw d 6 != 0 && zeroField d 2
    && (if bitOf (dw d 4) 24 then localOp (fld d 1) 1 anyFmt && (fld d 1).extent == 1 else zeroField d 1)
  | 2 => paramsIn d 0 0xFFFFFFC0 0xFFFF 0 0 && rest
  | 4 => paramsIn d 0 0x31FFF 0 0xFFFFFFFF 0 && bits (dw d 4) 16 2 != 3 && ctrOk (dw d 4) && rest
  | 5 => paramsIn d 0 0x7FFF 0 0xFFFFFFFF 0 && ctrOk (dw d 4) && sigOk (bits (dw d 4) 13 2) (dw d 6) && rest
  | 8 =>
    paramsIn d 0 0xF3F 0 0x3FFFFF 0xFFFF && dw d 6 % 64 == 0 && decide (dw d 7 ≤ 49152)
    && decide (dw d 6 + 64 * dw d 7 ≤ 0x300000) && rest
  | _ => false

/-- The descriptor's encoding is one that its operation accepts; what depends on the open loops is checked by the stream. -/
def validDesc (d : Desc) : Bool :=
  !bitOf (dw d 0) 13 && (!dInput d || dEng d == 0)
  && match dEng d with
    | 0 => xfValid d | 1 => saValid d | 2 => veValid d | 3 => shValid d | 4 => gsValid d | 5 => clValid d | 6 => spValid d
    | 7 => dzValid d | 8 => scValid d | _ => false

/-- The addressing operands of a descriptor with their field numbers, the destination of an ADD_SEND as field 2. -/
def operandsOf (d : Desc) : List (Nat × OpField) :=
  ([0, 1, 2].map fun i => (i, fld d i)).filter (fun e => e.2.use != 0)
    ++ (if dEng d = 5 ∧ dOpc d = 2 then [(2, sendField d)] else [])

/-- STR_FAULT.FIELD of a DESC_INVALID: the first addressing operand whose own form is broken (R39 to R43), else none
(log entry 20). -/
def invalidField (d : Desc) : Nat :=
  (([0, 1, 2].filter fun i => (fld d i).use != 0 && !staticOk (fld d i)).head?).getD 15

/-! ## Class, occupancy and completion -/

/-- What the issue check knows of an operation: ticks from issue to completion when it is fixed-latency, ticks in which it
occupies its engine's datapath, its interval at the injection port as first offset and length (R179, R180), and the
interval that counts for the heavy-unit budget (R168, R196). -/
structure OpPlan where
  dur : Option Nat := none
  busy : Nat := 0
  port : Option (Nat × Nat) := none
  heavy : Nat := 0
deriving DecidableEq, Repr

/-- Ticks per slot of a drain (R159). -/
def drainW (fmt cplx : Nat) : Nat := if cplx ≠ 0 then 8 else if fmt = 0xF then 4 else 1

/-- Passes of a MULTIPLY (R151). -/
def passes (d : Desc) : Nat :=
  16 * groupPlanes (bits (dw d 12) 12 4) (bits (dw d 12) 8 3) (bits (dw d 12) 4 2) * digitCount (fld d 0).fmt

/-- Ticks of a LOAD_PLANES at the fill port (R153): a trit plane is one plane. -/
def loadTicks (d : Desc) : Nat := 128 * groupPlanes (fld d 0).fmt (bits (dw d 8) 8 3) (bits (dw d 8) 4 2)

/-- Element count of a vector engine descriptor as R195 and R196 take it. -/
def veCount (d : Desc) : Nat :=
  match dOpc d with
  | 0x20 => 512 * (fld d 1).extent / fmtBits (fld d 1).fmt
  | 0x21 | 0x22 => 16 * (fld d 0).extent
  | 0x10 | 0x11 | 0x12 | 0x13 | 0x14 | 0x15 | 0x16 | 0x17 => 16 * (fld d 1).extent
  | _ => 16 * (fld d 2).extent

/-- The pipeline depth of R195. -/
def veDepth (opc : Nat) : Nat :=
  match opc with
  | 0x03 | 0x83 => 5
  | 0x04 | 0x84 | 0x20 => 6
  | 0x10 | 0x11 | 0x12 | 0x13 | 0x14 | 0x15 | 0x16 | 0x17 => 14
  | 0x21 | 0x22 => 12
  | _ => 4

/-- Beats that the shaper reads and writes (R200). -/
def shBeats (d : Desc) : Nat × Nat :=
  let f0 := fld d 0
  let f1 := fld d 1
  match dOpc d with
  | 1 | 2 | 0x20 => (f0.extent, f1.extent)
  | 3 => (dw d 12 * dw d 13, dw d 12 * dw d 13)
  | _ => (f0.extent + (if f1.use = 0 then 0 else f1.extent), (fld d 2).extent)

/-- The pipeline depth of R200. -/
def shDepth (opc : Nat) : Nat := if opc = 1 then 32 else if opc = 2 ∨ opc = 3 then 16 else 24

/-- Beats that the gather/scatter engine reads and writes (R204). -/
def gsBeats (d : Desc) : Nat × Nat :=
  let f0 := fld d 0
  let f1 := fld d 1
  match dOpc d with
  | 1 => (f0.extent + (fld d 2).extent, (fld d 2).extent)
  | _ => (f0.extent + f1.extent, f1.extent)

/-- Ticks of a sampler operation (R211). -/
def spTicks (d : Desc) : Nat :=
  let rows := spRows d
  let l := dw d 13
  let kk := dw d 15
  let a := ceilDiv l 16
  let sorted := a * (topBit (l - 1) + 1)
  match dOpc d with
  | 1 => rows * a + 8
  | 2 => rows * (a + ceilDiv kk 16 + 8) + 8
  | 3 => rows * sorted + 16
  | _ =>
    let k := Nat.min kk l
    rows * ((if kk ≤ 256 then a + ceilDiv k 16 + 8 else sorted) + 2 * ceilDiv k 16 + 24) + 16

/-- The plan of a valid descriptor. -/
def opPlan (d : Desc) : OpPlan :=
  let f0 := fld d 0
  let f1 := fld d 1
  match dEng d with
  | 0 =>
    if dOpc d = 1 ∧ f0.space = 0 ∧ f1.space = 0 then { dur := some (f0.extent + 8), busy := f0.extent }
    else if dOpc d = 1 ∧ f0.space = 0 ∧ f1.space = 3 then { dur := some f0.extent, port := some (0, f0.extent) }
    else {}
  | 1 =>
    if dOpc d = 1 then { dur := some (loadTicks d) }
    else
      let n := passes d
      { dur := some (if bitOf (dw d 12) 2 then n + 8 + 16 * drainW f1.fmt (bits (dw d 12) 20 2) else n), heavy := n }
  | 2 =>
    let n := veCount d
    { dur := some (ceilDiv n 64 + veDepth (dOpc d)), busy := ceilDiv n 64, heavy := if 64 ≤ n then ceilDiv n 64 else 0 }
  | 3 =>
    let (i, o) := shBeats d
    let b := ceilDiv (Nat.max i o) 2
    { dur := some (b + shDepth (dOpc d)), busy := b }
  | 4 =>
    let (i, o) := gsBeats d
    let b := ceilDiv (Nat.max i o) 2
    { dur := some (b + 12), busy := b }
  | 5 =>
    let n := f0.extent
    if dOpc d = 1 then { dur := some (n + 4), busy := n }
    else if (sendField d).space = 3 then { dur := some (n + 4), busy := n, port := some (4, n) }
    else { busy := n }
  | 6 => { dur := some (spTicks d), busy := spTicks d }
  | 7 => {}
  | _ => { dur := some 0 }

/-- The region slots that a descriptor names with the union of their uses (R57); a REGION writes its slot. -/
def slotUses (d : Desc) : List (Nat × Nat) :=
  if dEng d = 8 ∧ dOpc d = 8 then [(dw d 4 % 64, 2)]
  else ([0, 1, 2].map fun i => fld d i).filterMap fun f => if f.use != 0 && f.space == 0 then some (f.region, f.use) else none

/-- Whether a later descriptor conflicts with an earlier one over some slot (R57). -/
def slotConflict (earlier later : List (Nat × Nat)) : Bool :=
  earlier.any fun e => later.any fun d => e.1 == d.1 && !(e.2 == 1 && d.2 == 1)

end Sys2Proof.Machine
end

