-- ==== Sys2Proof/Machine/Ports.lean ====
section
/-! DEFINITION. The engine ports of a skein: which beats an operation reads and writes in which tick (R153, R159, R165, R183, R185,
R206, R215, R500), and who goes first where accesses meet at a bank: with a fault in a timed segment (R226), with a freeze in an
untimed one (R169, R227). -/

namespace Sys2Proof.Machine

/-! ## Sequences of beats -/

/-- Consecutive beats from a byte offset, or positions of the sequence in which nothing is accessed; `slot` numbers the first. -/
structure Run where
  base : Option Nat
  slot : Nat
  count : Nat
deriving DecidableEq, Repr

/-- Number and byte offset of beat i of a sequence of runs. -/
def beatAt : List Run → Nat → Option (Nat × Nat)
  | [], _ => none
  | r :: rs, i => if i < r.count then r.base.map fun b => (r.slot + i, b + 64 * i) else beatAt rs (i - r.count)

/-- The beats read in tick x after the issue at a rate of beats per tick. -/
def readsAt (rate : Nat) (rs : List Run) (x : Nat) : List (Nat × Nat) := (List.range rate).filterMap fun i => beatAt rs (rate * x + i)

/-- Ticks after the issue in which beat i of `count` is written, the last in the tick before completion. -/
def writeTick (rate count dur i : Nat) : Nat := dur - ceilDiv count rate + i / rate

/-- The beats written in tick x after the issue. -/
def writesAt (rate count dur : Nat) (rs : List Run) (x : Nat) : List (Nat × Nat) :=
  let w := ceilDiv count rate
  if dur ≤ x + w ∧ x < dur then (List.range rate).filterMap fun i => beatAt rs (rate * (x + w - dur) + i) else []

/-- The read slot of beat j of operand field i. -/
def slotOf (i j : Nat) : Nat := 2 ^ 24 * i + j

/-- The beats of a source of `w`-bit elements, field i, that the vector engine reads in tick x: those whose first element is one of
the 64 elements that it processes then. -/
def veReadsAt (i eff ext w n x : Nat) : List (Nat × Nat) :=
  if n ≤ 64 * x then []
  else
    let lo := ceilDiv (64 * x * w) 512
    let hi := Nat.min ext (ceilDiv (Nat.min n (64 * (x + 1)) * w) 512)
    (List.range (hi - lo)).map fun j => (slotOf i (lo + j), eff + 64 * (lo + j))

/-! ## Lists of indices (R185, R202) -/

/-- An index list entry: a row or page, none for −1, or bad. -/
inductive Entry where
  | row (e : Nat) | skip | bad
deriving DecidableEq, Repr

/-- Read an index entry for a table of t rows. -/
def entryOf (t e : Nat) : Entry := if e < t ∧ e < 2 ^ 31 then .row e else if e = 0xFFFFFFFF then .skip else .bad

/-- Beat j of an operation's list in field 0: as read, or as it stands when it is read in this tick. -/
def Op.listBeat (o : Op) (peek : Nat → List Byte) (j : Nat) : List Byte :=
  match o.seen.find? fun e => e.1 == slotOf 0 j with
  | some e => e.2
  | none => peek (o.eff.getD 0 0 + 64 * j)

/-- Entry j of an operation's list, for a table of t rows. -/
def Op.entry (o : Op) (peek : Nat → List Byte) (t j : Nat) : Entry :=
  entryOf t (leNat (((o.listBeat peek (j / 16)).drop (4 * (j % 16))).take 4))

/-- The rows of an index list at a table: entry j stands for `r` beats of the sequence, which start at number r j. -/
def Op.listRows (o : Op) (peek : Nat → List Byte) (field n table r t : Nat) : List Run :=
  (List.range n).map fun j => ⟨match o.entry peek t j with
    | .row e => some (table + 64 * r * e)
    | _ => none, slotOf field (r * j), r⟩

/-- Pages that a PAGED descriptor names, and pages in its pool (R185). -/
def pageCounts (d : Desc) : Nat × Nat := if dOpc d = 2 then ((fld d 2).extent / 1024, (fld d 1).extent / 1024) else ((fld d 1).extent / 1024, (fld d 2).extent / 1024)

/-- List entries of a PAGED operation that stand in the beats read up to tick x after its issue. -/
def pagesKnown (d : Desc) (x : Nat) : Nat := Nat.min (pageCounts d).1 (16 * Nat.min (x + 1) (fld d 0).extent)

/-- The data pages that a PAGED_WR moves, among the list entries known up to tick x after its issue: their number and pool page. -/
def Op.pagesOut (o : Op) (peek : Nat → List Byte) (x : Nat) : List (Nat × Nat) :=
  (List.range (pagesKnown o.desc x)).filterMap fun j => match o.entry peek (pageCounts o.desc).2 j with
    | .row e => some (j, e)
    | _ => none

/-! ## The access schedule (R500) -/

/-- The element bits that a drain writes for each slot (R158, R171). -/
def slotBits (d : Desc) : Nat := (if bits (dw d 12) 20 2 = 0 then 128 else 256) * fmtBits (fld d 1).fmt

/-- The beats of slot r of a drain: a beat that the next slot shares is left to it (R159). -/
def slotBeats (sb r : Nat) : List Nat :=
  let lo := r * sb / 512
  (List.range ((r + 1) * sb / 512 - lo)).map (lo + ·)

/-- Order of accesses that meet at a bank (R227). -/
def portOrder (eng : Nat) : Nat :=
  match eng with
  | 0 => 1 | 1 => 3 | 5 => 4 | 2 => 5 | 3 => 6 | 4 => 7 | 6 => 8 | 7 => 9 | _ => 10

/-- A read of an operation. -/
def rdAccess (order : Nat) (e : Nat × Nat) : Access := ⟨order, false, e.1, e.2⟩
/-- A write of an operation. -/
def wrAccess (order : Nat) (e : Nat × Nat) : Access := ⟨order, true, e.1, e.2⟩

/-- The beats of a drain in tick x after the issue, 8 per tick (R159, R165). -/
def drainBeatsAt (d : Desc) (x : Nat) : List Nat :=
  let n := passes d
  let w := drainW (fld d 1).fmt (bits (dw d 12) 20 2)
  let y := x - (n + 8)
  if bitOf (dw d 12) 2 ∧ n + 8 ≤ x ∧ y < 16 * w then ((slotBeats (slotBits d) (y / w)).drop (8 * (y % w))).take 8 else []

/-- The stitch array's reads and writes in tick x after the issue (R153, R159, R165): the fill port reads a row of a plane, both bits of a
row of trits, and its share of the scales; the feeder reads each digit vector one tick before its first pass, the scales with a
vector's first; the drain writes its beats, and with ACC reads them in the same tick. -/
def saAccesses (d : Desc) (eff : List Nat) (x : Nat) : List Access :=
  let a := eff.getD 0 0
  if dOpc d = 1 then
    if loadTicks d ≤ x then []
    else
      let row := a + 512 + 2048 * 8 * bits (dw d 8) 4 2 + 16 * x
      let plane (i : Nat) : Nat × Nat := (slotOf i x, row + 2048 * i - row % 64)
      [rdAccess 3 (plane 0)] ++ (if (fld d 0).fmt = 0 then [rdAccess 3 (plane 1)] else [])
        ++ (if x < 128 then [rdAccess 3 (slotOf 2 x, a + 64 * (x / 16))] else [])
  else
    let n := passes d
    let dc := digitCount (fld d 0).fmt
    let p := n / (16 * dc)
    let q := x - 1
    let feed := if 1 ≤ x ∧ x ≤ n ∧ q % p = 0 then
        let b := 1 + 2 * (q / p)
        [rdAccess 3 (slotOf 0 b, a + 64 * b), rdAccess 3 (slotOf 0 (b + 1), a + 64 * (b + 1))]
          ++ (if q / p % dc = 0 then [rdAccess 3 (slotOf 2 (q / p / dc), a)] else [])
      else []
    let out := eff.getD 1 0
    let beats := drainBeatsAt d x
    feed ++ (if bitOf (dw d 12) 3 then beats.map fun b => rdAccess 2 (slotOf 1 b, out + 64 * b) else [])
      ++ beats.map fun b => wrAccess 2 (b, out + 64 * b)

/-- The reads and writes of one of the other engines' fixed-latency operations in tick x after the issue. -/
def engineBeats (o : Op) (peek : Nat → List Byte) (x : Nat) : List (Nat × Nat) × List (Nat × Nat) :=
  let d := o.desc
  let f (i : Nat) : OpField := fld d i
  let a (i : Nat) : Nat := o.eff.getD i 0
  let run (i : Nat) : Run := ⟨some (a i), slotOf i 0, (f i).extent⟩
  let out (i : Nat) : Run := ⟨some (a i), 0, (f i).extent⟩
  let dur := (opPlan d).dur.getD 0
  let total (rs : List Run) : Nat := (rs.map (·.count)).sum
  let two (rs ws : List Run) : List (Nat × Nat) × List (Nat × Nat) := (readsAt 2 rs x, writesAt 2 (total ws) dur ws x)
  match dEng d with
  | 2 =>
    let n := veCount d
    let src (i : Nat) : List (Nat × Nat) := veReadsAt i (a i) (f i).extent (fmtBits (f i).fmt) n x
    let c := dOpc d
    if 0x10 ≤ c ∧ c < 0x80 then (src 0, writesAt 4 (f 1).extent dur [out 1] x)
    else (src 0 ++ veReadsAt 1 (a 1) (f 1).extent 32 (16 * (f 1).extent) x ++ (if c % 128 = 4 then src 2 else []),
      writesAt 4 (f 2).extent dur [out 2] x)
  | 3 =>
    (match dOpc d with
      | 3 =>
        let rows (i p s : Nat) : List Run := (List.range (dw d 12)).map fun r => ⟨some (a i + 64 * p * r), s + dw d 13 * r, dw d 13⟩
        two (rows 0 (dw d 14) (slotOf 0 0)) (rows 1 (dw d 15) 0)
      | 1 | 2 | 0x20 => two [run 0] [out 1]
      | _ => two (if (f 1).use = 0 then [run 0] else [run 0, run 1]) [out 2])
  | 4 =>
    let n := 16 * (f 0).extent
    (match dOpc d with
      | 1 => let r := (f 2).extent / n; two (run 0 :: o.listRows peek 1 n (a 1) r ((f 1).extent / r)) [out 2]
      | 2 => let r := (f 1).extent / n; two [run 0, run 1] (o.listRows peek 0 n (a 2) r ((f 2).extent / r))
      | _ => two [run 0, run 1] [out 1])
  | 5 =>
    let n := (f 0).extent
    let p := if dOpc d = 1 then 2 else 1
    (readsAt 1 [run 0] x ++ readsAt 1 [run 1] x, if 4 ≤ x ∧ x < n + 4 then [(x - 4, a p + 64 * (x - 4))] else [])
  | 6 => (readsAt 1 [run 0] x, writesAt 1 (f 1).extent dur [out 1] x)
  | _ => ([], [])

/-- The data beats of a transfer that have left the core or are on the way out: those that have left, and those whose read lost its bank
and comes later. -/
def Op.beatsOut (o : Op) (left : Nat) : Nat := left + (o.again.filter fun a => !a.write && (dOpc o.desc == 1 || decide (2 ^ 24 ≤ a.slot))).length

/-- The transfer engine's reads and writes (R183, R185, R235): a LOCAL copy writes beat i 8 ticks after it reads it; outgoing beats leave
one per tick, those of a RANK transfer from its grant; page lists are read one beat per tick. -/
def transferBeats (o : Op) (peek : Nat → List Byte) (x : Nat) : List (Nat × Nat) × List (Nat × Nat) :=
  let d := o.desc
  let a (i : Nat) : Nat := o.eff.getD i 0
  let n := (fld d 0).extent
  let beat (i : Nat) : List (Nat × Nat) := if i < n then [(slotOf 0 i, a 0 + 64 * i)] else []
  match dOpc d with
  | 1 =>
    if (fld d 0).space ≠ 0 then ([], [])
    else match o.work with
      | .rank (some (_, left)) false => (beat (o.beatsOut left), [])
      | .rank _ _ => ([], [])
      | _ => (beat x, if (fld d 1).space = 0 ∧ 8 ≤ x ∧ x < n + 8 then [(x - 8, a 1 + 64 * (x - 8))] else [])
  | 2 => (beat x, [])
  | 3 =>
    let b := o.beatsOut o.feedNext
    (beat x ++ match (o.pagesOut peek x)[b / 1024]? with
      | some (j, _) => [(slotOf 1 (1024 * j + b % 1024), a 1 + 65536 * j + 64 * (b % 1024))]
      | none => [], [])
  | _ => ([], [])

/-! ## The decompressor's input (R213, R215) -/

/-- The last input beat that output beat i of an EXPAND depends on (R213); a BEATMAP's map is its first beats. -/
def needBeat (o : Op) (i : Nat) : Nat :=
  let d := o.desc
  let w := dw d 12
  let n := dw d 13
  let e := (fld d 0).extent
  let eb := fmtBits (fld d 0).fmt
  Nat.min (n - 1) (match w % 16 with
    | 0 => i
    | 1 =>
      let mb := ceilDiv e 512
      mb - 1 + ((setBitsOf e (leNat (o.bytes 0 mb))).filter (decide <| · ≤ i)).length
    | 2 => if i < 8 then i else 40 + 16 * ((i - 8) / 32) + (i - 8) % 32 / 2
    | _ => if bitOf w 31 || bitOf w 30 || decide (7 ≤ i) then n - 1 else ((128 * (32 * (i / 2) + 31) + 64 * (i % 2) + 64) * eb - 1) / 512)

/-- Input beats that the map of a BEATMAP takes before anything else is known. -/
def mapBeats (d : Desc) : Nat := if dw d 12 % 16 = 1 then Nat.min (dw d 13) (ceilDiv (fld d 0).extent 512) else 0

/-- Input beats that an EXPAND has to have taken before it writes output beat i; at its end, all. -/
def needInput (o : Op) (i : Nat) : Nat :=
  if (fld o.desc 0).extent ≤ i + 1 then dw o.desc 13
  else if o.feedNext < mapBeats o.desc then mapBeats o.desc else Nat.max (mapBeats o.desc) (needBeat o i + 1)

/-- The output beats that an EXPAND writes in a tick: its next two, as far as their input is at hand (R215). -/
def expandBeats (o : Op) : List (Nat × Nat) :=
  if o.work ≠ .expand none then []
  else [o.age, o.age + 1].filterMap fun i =>
    if i < (fld o.desc 0).extent ∧ mapBeats o.desc ≤ o.feedNext ∧ needInput o i ≤ o.feedNext then some (i, o.eff.getD 0 0 + 64 * i) else none

/-- The accesses of an operation through engine ports in its tick x. `peek` shows the beats of its skein in this tick. -/
def accesses (o : Op) (peek : Nat → List Byte) (x : Nat) : List Access :=
  let p := portOrder o.eng
  let all (e : List (Nat × Nat) × List (Nat × Nat)) : List Access := e.1.map (rdAccess p) ++ e.2.map (wrAccess p)
  match o.eng with
  | 0 => all (transferBeats o peek x)
  | 1 => saAccesses o.desc o.eff x
  | 7 => (expandBeats o).map (wrAccess p)
  | 8 => []
  | _ => all (engineBeats o peek x)

/-! ## Who moves in a tick -/

/-- PTC advances at the end of this tick: no freeze is due either. -/
def planMoves (s : State) : Bool :=
  ptcRuns s && match s.hold with
    | none => true
    | some h => h.frozen || !decide (h.freezeAt ≤ s.wall)

/-- The package is not stopped and its plan clocks run: what a hold does not freeze moves (R93). -/
def clockRuns (s : State) : Bool := !s.flt.stopped && s.clk.switching.isNone

/-- Whether an operation moves in this tick: a fixed-latency one with PTC, any other also during a hold (R93). -/
def opMoves (s : State) (o : Op) : Bool := match o.work with
  | .fixed _ => planMoves s
  | _ => clockRuns s

/-- The beats of core k's skein as they stand for a read in this tick. -/
def peekAt (s : State) (k : Nat) (off : Nat) : List Byte := portBytes s k off 64

/-- The accesses that an operation is to make in this tick: those that lost their bank before, and, unless its engine was frozen, those of
its next tick. -/
def dueNow (s : State) (k : Nat) (o : Op) : List Access :=
  if !opMoves s o then [] else o.again ++ (if o.frozen then [] else accesses o (peekAt s k) o.age)

/-! ## Meetings at a bank (R224, R226, R227) -/

/-- The bank of a beat. -/
def bankOf (b : Nat) : Nat := b / 64 % 32

/-- An access that is due: the operation's number, engine and kind of segment, its place among all that are due, and itself. -/
structure Due where
  op : Nat
  eng : Nat
  timed : Bool
  place : Nat
  acc : Access
deriving DecidableEq, Repr

/-- The order in which two meeting accesses go: by engine code in a timed segment (R226), by the table of R227 otherwise, and among
equals as they stand. -/
def Due.before (x y : Due) : Bool :=
  let key (e : Due) : Nat := if x.timed && y.timed then e.eng else e.acc.order
  decide (key x < key y) || (key x == key y && decide (x.place < y.place))

/-- Two accesses meet: they are at one bank. The stitch array's own accesses for one descriptor stand in ticks that R153, R159 and R165
give it, and do not meet each other (log entry 32). -/
def Due.meets (x y : Due) : Bool := x.place != y.place && bankOf x.acc.beat == bankOf y.acc.beat && !(x.op == y.op && x.eng == 1)

/-- The access to which one that is due loses its bank in this tick. -/
def loserTo (all : List Due) (x : Due) : Option Due := all.find? fun y => x.meets y && y.before x

/-- The accesses that are due in a core. -/
def coreDues (s : State) (k : Nat) (ops : List Op) : List Due :=
  let flat := ops.flatMap fun o => (dueNow s k o).map fun a => (o, a)
  (List.range flat.length).zip flat |>.map fun (i, o, a) => ⟨o.id, o.eng, o.timed, i, a⟩

/-- SKN_BANK_CONFLICT (R226, R259): the engine served first, its beat, and the engine delayed. -/
def bankConflict (s : State) (k first beat second : Nat) : State :=
  panelFault s (.skn (k / 288)) 2 (k % 288) 0 (some (first * 2 ^ 28 + second * 2 ^ 24 + bankOf beat * 2 ^ 11 + beat / 2048))

/-- The conflicts of a tick: one for each access of a timed segment that goes one tick later. -/
def raiseConflicts (s : State) (k : Nat) (all : List Due) : State :=
  all.foldl (fun s x => if !x.timed then s else match loserTo all x with
    | some y => bankConflict s k y.eng y.acc.beat x.eng
    | none => s) s

/-- The first access of this tick that the read of an indirect count meets: the stream comes last (R226, R227). -/
def countMeets (s : State) (k beat : Nat) : Option Due := (coreDues s k (s.core k).inflight).find? fun y => bankOf y.acc.beat == bankOf beat

/-! ## Freezes in an untimed segment (R169, R227) -/

/-- What freezes together: an engine, the stitch array, or its fill port. -/
def freezeGroup (o : Op) : Nat := if o.eng = 1 ∧ dOpc o.desc = 1 then 16 else o.eng

/-- The groups that freeze in this tick: those of an untimed segment that lose an access. -/
def frozenGroups (ops : List Op) (lost : List Due) : List Nat :=
  ((ops.filter fun o => !o.timed && lost.any fun x => x.op == o.id).map freezeGroup).eraseDups

/-- One tick later, where the time has not passed. -/
def later (now t : Nat) : Nat := if now < t then t + 1 else t

/-- A core's datapaths after a tick in which the group froze (R169). -/
def Core.freeze (c : Core) (now g : Nat) : Core :=
  let c1 := if g < 16 then { c with engFree := FMap.put 0 c.engFree g (later now (FMap.look 0 c.engFree g)) } else c
  let c2 := { c1 with port := c1.port.map fun e => if e.1 = g then (e.1, later now e.2.1, later now e.2.2) else e }
  let sa := c2.sa
  if g = 1 then { c2 with sa := { sa with array := later now sa.array, drain := later now sa.drain, mul0 := later now sa.mul0, mul1 := later now sa.mul1 } }
  else if g = 16 then { c2 with sa := { sa with fill := later now sa.fill, load0 := later now sa.load0, load1 := later now sa.load1 } }
  else c2

/-- SA_FREEZE_TICKS counts a tick of the panel once (R175). -/
def countFreeze (s : State) (p : Nat) : State :=
  let b := Blk.sa p
  if FMap.look 0 s.faultAt (b.base + 0x50) = s.wall + 1 then s
  else { s.incReg b 0x50 with faultAt := FMap.put 0 s.faultAt (b.base + 0x50) (s.wall + 1) }

end Sys2Proof.Machine
end

