-- ==== Sys2Proof/Machine/Flags.lean ====
section
/-! DEFINITION. What an operation makes of the beats it has read, and the status events of the engines: sticky bits, numeric faults and
the faults of the SA and ENG blocks (R118, R134, R142, R146, R147, R174, R221). -/

namespace Sys2Proof.Machine

/-- An event of an operation. -/
inductive Ev where
  /-- n numeric events of a code of R146: 1 = a saturated LS128 element (R134), 2 = SPECIAL (R124, R142, R210), 3 = a read of the T1
  code 10 (R118). -/
  | num (code n : Nat)
  /-- a fault of the ENG block: code and INDEX (R221). -/
  | eng (code info : Nat)
  /-- a fault of the SA block: code, slot, block and index (R174). -/
  | sa (code slot block index : Nat)
deriving DecidableEq, Repr

/-- What an operation writes, in the order of its writes, and its events, each with the tick after the issue in which it comes. Beats and
events of a tick depend on beats read up to that tick only. -/
structure Result where
  out : List Byte := []
  evs : List (Nat × Ev) := []
deriving DecidableEq, Repr

/-- A numeric event, unless there is none. -/
def numEv (tick code n : Nat) : List (Nat × Ev) := if n = 0 then [] else [(tick, .num code n)]

/-- Raise a numeric fault of a core n times. -/
def numFaults (s : State) (k code : Nat) : Nat → State
  | 0 => s
  | n + 1 => numFaults (numFault s k code) k code n

/-- Whether a numeric event raises its fault: LS128_SAT with FLAGS.SATFAULT, the others as NUM_CTRL says (R118, R134, R142, R145). -/
def numFaultOn (s : State) (k : Nat) (d : Desc) (code : Nat) : Bool :=
  match code with
  | 1 => dSatFault d
  | 2 => bitOf (numCtrl s (k / 288)) 1
  | _ => bitOf (numCtrl s (k / 288)) 0

/-- A fault of the ENG block (R221): 1 = GS_INDEX, 2 = XF_PAGE_RANGE, 3 = DZ_FORMAT. -/
def engFault (s : State) (k code eng info : Nat) : State :=
  panelFault s (.eng (k / 288)) code (k % 288) (eng * 2 ^ 12) (some info)

/-- A fault of the SA block (R174): 1 = SA_RESIDUE, 3 = SA_PLANE_PARITY; set, slot, block and index as SA_FAULT_INFO. -/
def saFault (s : State) (k code set slot block index : Nat) : State :=
  panelFault s (.sa (k / 288)) code (k % 288) 0 (some (set * 2 ^ 13 + slot * 2 ^ 9 + block * 2 ^ 7 + index))

/-- An event of an operation of core k comes about. -/
def fireEv (k : Nat) (o : Op) (s : State) (e : Ev) : State :=
  match e with
  | .num code n =>
    let s1 := stickyBit s k (0x40 + 0x40 * code)
    if numFaultOn s k o.desc code then numFaults s1 k code n else s1
  | .eng code info => engFault s k code o.eng info
  | .sa code slot block index => saFault s k code (b2n (bitOf (dw o.desc 12) 0)) slot block index

/-- The events of tick x after the issue. -/
def Result.at (r : Result) (x : Nat) : List Ev := (r.evs.filter fun e => e.1 == x).map (·.2)

/-- Beat i of what an operation writes. -/
def Result.beat (r : Result) (i : Nat) : List Byte := (r.out.drop (64 * i)).take 64

end Sys2Proof.Machine
end

