-- ==== Sys2Proof/Machine/FuncUnit.lean ====
section
/-! DEFINITION. The function units of the vector engine (R190, R191): the special cases, and every other result within its accuracy bound.
The tables that fix the bits ship with the part and are not in the manual, so a result is a free value inside the bound (log entry 6). -/

namespace Sys2Proof.Machine

/-! ## The exact functions, in fixed point -/

/-- Bits after the binary point of the calculations here. -/
def fixBits : Nat := 400

/-- 1 in fixed point. -/
def fixOne : Nat := 2 ^ fixBits

/-- The product of two fixed-point numbers. -/
def fixMul (a b : Nat) : Nat := a * b / fixOne

/-- n terms of the series of e^r from term i on, `t` being term i. -/
def expSeries (r : Nat) : (n i t : Nat) → Nat
  | 0, _, _ => 0
  | n + 1, i, t => t + expSeries r n (i + 1) (fixMul t r / (i + 1))

/-- n terms of the series of atanh z from z^i ∕ i on, `p` being z^i and `zz` z². -/
def atanhSeries (zz : Nat) : (n i p : Nat) → Nat
  | 0, _, _ => 0
  | n + 1, i, p => p / i + atanhSeries zz n (i + 2) (fixMul p zz)

/-- The natural logarithm of a ∕ b, for b ≤ a ≤ 2 b. -/
def lnRatio (a b : Nat) : Nat :=
  let z := (a - b) * fixOne / (a + b)
  2 * atanhSeries (fixMul z z) 140 1 z

/-- ln 2. -/
def ln2 : Nat := lnRatio 2 1

/-- e^x for a fixed-point x of at most 2^7, not negative. -/
def fixExp (x : Nat) : Nat := expSeries (x % ln2) 110 0 fixOne * 2 ^ (x / ln2)

/-- e^−x for a fixed-point x, not negative; beyond 2^8 it is below every FP32 value. -/
def fixExpNeg (x : Nat) : Nat := if 256 * fixOne ≤ x then 0 else fixOne * fixOne / fixExp x

/-- The magnitude of m × 2^e in fixed point, at most 2^9. -/
def fixMag (m : Nat) (e : Int) : Nat := Nat.min (512 * fixOne) (if 600 < floorLog2 m e then 512 * fixOne else (scale2 m (e + fixBits)).toNat)

/-- The exact value of a function of the FP32 value m × 2^e in fixed point, to more than 2^−200 of an ulp: RCP, RSQRT, EXP2, LOG2, EXP,
TANH, SIGMOID (R190). RCP and RSQRT take more bits after the point where they need them. -/
def exactFunc (opc : Nat) (m : Int) (e : Int) : Int :=
  let a := m.natAbs
  let x := fixMag a e
  let sgn (v : Nat) : Int := if m < 0 then -(v : Int) else v
  match opc with
  | 0x10 => sgn ((scale2 (2 ^ 800 / (a : Int)) (fixBits - 800 - e)).toNat)
  | 0x12 =>
    let e1 := if e % 2 = 0 then e else e - 1
    let a1 := if e % 2 = 0 then a else 2 * a
    scale2 (isqrt (2 ^ 1000 / a1) 501 0) (fixBits - 500 - e1 / 2)
  | 0x13 => let y := fixMul x ln2; if m < 0 then fixExpNeg y else fixExp (Nat.min y (128 * fixOne))
  | 0x14 =>
    let k := floorLog2 a e
    k * fixOne + ((lnRatio a (2 ^ a.log2) * fixOne / ln2 : Nat) : Int)
  | 0x15 => if m < 0 then fixExpNeg x else fixExp (Nat.min x (128 * fixOne))
  | 0x16 => let t := fixExpNeg (2 * x); sgn ((fixOne - t) * fixOne / (fixOne + t))
  | _ => let t := fixExpNeg x; ((if m < 0 then t else fixOne) * fixOne / (fixOne + t) : Nat)

/-! ## The accuracy bound -/

/-- The bound of R190 in ulp. -/
def funcUlps (opc : Nat) : Nat := if opc = 0x15 ∨ opc = 0x16 ∨ opc = 0x17 then 2 else 1

/-- One ulp of an FP32 result at a fixed-point value, in fixed point. -/
def fixUlp (v : Int) : Nat := 2 ^ ((fixBits : Int) + max ((v.natAbs.log2 : Int) - fixBits) (-126) - 23).toNat

/-- What an infinite result stands for: the next power of two beyond the largest FP32 value. -/
def fixInf (neg : Bool) : Int := if neg then -((2 ^ 128 * fixOne : Nat) : Int) else ((2 ^ 128 * fixOne : Nat) : Int)

/-- The result of an FP32 operation as a fixed-point number, an infinity as the next power of two beyond the largest value. -/
def fixOf (y : Nat) : Option Int := match fpVal y with
  | .nan => none
  | .inf neg => some (fixInf neg)
  | .zero _ => some 0
  | .fin m e => some (scale2 m (e + fixBits))

/-- A result is within its function's bound of the exact value: at most 1 or 2 ulp away, or an infinity of a value beyond FP32. -/
def inBound (opc : Nat) (exact : Int) (y : Nat) : Bool := match fixOf y with
  | none => false
  | some v =>
    let beyond := decide ((2 ^ 128 * fixOne : Nat) ≤ exact.natAbs)
    if beyond then decide (v = fixInf (decide (exact < 0)))
    else decide ((v - exact).natAbs ≤ funcUlps opc * fixUlp exact)

/-- The canonical FP32 NaN. -/
def nan32 : Nat := 0x7FC00000

/-- A result with its NaN made canonical (R120). -/
def canonical32 (v : Nat) : Nat := if fpVal v = .nan then nan32 else v

/-- A function unit's result for the value m × 2^e with the bits `a` (R191): the unit's own, which is one value for each operation, RMODE
and operand, and lies within the bound of the exact value. -/
def funcResult (opc mode a : Nat) (m e : Int) : Nat :=
  let exact := exactFunc opc m e
  let y := (Config.funcUnit opc mode (BitVec.ofNat 32 a)).toNat
  if inBound opc exact y then y else fpRound 0 (XVal.ofDyadic exact (-fixBits))

/-- The function units (R190, R191): the special cases of R190, SQRT exact, every other result within its bound. -/
def fpFunc (opc mode a : Nat) : Nat :=
  let x := fpVal a
  let inf := 0x7F800000
  let one := 0x3F800000
  match x, opc with
  | .nan, _ => nan32
  | .inf neg, 0x10 => if neg then 0x80000000 else 0
  | .zero neg, 0x10 => if neg then 0x80000000 + inf else inf
  | .inf neg, 0x11 => if neg then nan32 else inf
  | .zero _, 0x11 => a
  | .fin m e, 0x11 => if m < 0 then nan32 else fpRound mode (sqrtX m.toNat e)
  | .inf neg, 0x12 => if neg then nan32 else 0
  | .zero neg, 0x12 => if neg then 0x80000000 + inf else inf
  | .fin m e, 0x12 => if m < 0 then nan32 else funcResult opc mode a m e
  | .inf neg, 0x13 | .inf neg, 0x15 => if neg then 0 else inf
  | .zero _, 0x13 | .zero _, 0x15 => one
  | .fin m e, 0x13 => if leDyadic (128, 0) (m, e) then inf else if !leDyadic (-149, 0) (m, e) then 0 else funcResult opc mode a m e
  | .inf neg, 0x14 => if neg then nan32 else inf
  | .zero _, 0x14 => 0x80000000 + inf
  | .fin m e, 0x14 => if m < 0 then nan32 else if a = one then 0 else funcResult opc mode a m e
  | .inf neg, 0x16 => if neg then 0x80000000 + one else one
  | .zero _, 0x16 => a
  | .inf neg, 0x17 => if neg then 0 else one
  | .zero _, 0x17 => 0x3F000000
  | .fin m e, _ => funcResult opc mode a m e
  | _, _ => nan32

end Sys2Proof.Machine
end

