-- ==== Sys2Proof/Machine/Hold.lean ====
section
/-! DEFINITION. The holder: freeze, late items, refreshes, broadcast, resume, watchdog, debug requests and the log
(R91 to R101, R112 to R115), and the PLAN snapshot (R111). -/

namespace Sys2Proof.Machine

/-! ## Late items (R94) -/

/-- An issued descriptor is complete (R58). -/
def opDone (o : Op) : Bool := o.done.isSome

/-- It was complete in a tick before this one: what an issue check sees (R59). -/
def opDoneBefore (s : State) (o : Op) : Bool := o.done.any fun w => decide (w < s.wall)

/-- STR_STATE.DRAINED: every issued descriptor is complete. -/
def drained (c : Core) : Bool := c.inflight.all opDone

/-- Queue entries of an engine that its issued descriptors hold: incomplete by `seen` (R60). -/
def queuedIssued (seen : Op → Bool) (c : Core) (eng : Nat) : Nat := (c.inflight.filter fun o => o.eng == eng && !seen o).length

/-- Queue entries of an engine in use, by checked and by issued descriptors (R60). -/
def queued (seen : Op → Bool) (c : Core) (eng : Nat) : Nat :=
  queuedIssued seen c eng + (c.stream.checked.filter fun d => bits (d.desc.getD 0 0).toNat 8 4 == eng).length

/-- Whether a descriptor names a region slot: a REGION descriptor, or an addressing LOCAL operand (R60). -/
def namesSlot (d : Desc) : Bool :=
  let w0 := (d.getD 0 0).toNat
  (bits w0 8 4 == 8 && bits w0 0 8 == 8) ||
  ([5, 9, 13].any fun i =>
    let w := (d.getD i 0).toNat
    bits w 30 2 != 0 && bits w 16 4 == 0)

/-- Scoreboard entries that issued descriptors hold (R60). -/
def boardIssued (seen : Op → Bool) (c : Core) : Nat := (c.inflight.filter fun o => namesSlot o.desc && !seen o).length

/-- Scoreboard entries in use (R60). -/
def scoreboard (seen : Op → Bool) (c : Core) : Nat := boardIssued seen c + (c.stream.checked.filter fun d => namesSlot d.desc).length

/-- The track of a stream whose next descriptor a late item waits for: a replaced segment's before the running one's (R70). -/
def headTrack (st : Stream) : Track := match st.old with
  | some o => if o.pos.isSome then o else st.tr
  | none => st.tr

/-- The next descriptor of a segment is fetched and decoded, or there is none to come. -/
def headDecoded (st : Stream) : Bool :=
  let t := headTrack st
  match t.fetch.window with
  | f :: _ => f.tick.isSome
  | [] => st.st == .faulted || t.pos.isNone

/-- Whether a late item's condition is true (R94). -/
def itemArrived (s : State) : LateItem → Bool
  | .producer k id => !((s.core k).inflight.any fun o => o.id == id && !opDone o) && !((s.core k).stream.checked.any fun d => d.id == id)
  | .counter k ctr v => decide (v ≤ (counterOf s k ctr).value.toInt)
  | .token key debt => decide (debt ≤ (FMap.look {} s.windows key).paid)
  | .window k id => s.hostGrants.any fun g => g.1 == k && g.2.1 == id
  | .fetch k => headDecoded (s.core k).stream
  | .latch k => (s.core k).stream.st == .faulted || (!(headTrack (s.core k).stream).requested && headDecoded (s.core k).stream)
  | .queueEntry k eng => decide (queued opDone (s.core k) eng ≤ 16)
  | .scoreboard k => decide (scoreboard opDone (s.core k) ≤ 128)
  | .thermal p => (FMap.look {} s.thms p).withdrawAt.isNone
  | .critical _ => false
  | .d2d p i => (FMap.look {} s.d2ds (3 * p + i)).fails == 0
  | .debug => false

/-- Mark the items that `f` picks as arrived. -/
def Hold.mark (h : Hold) (f : HoldReq → LateItem → Bool) : Hold :=
  { h with reqs := h.reqs.map fun r => { r with items := r.items.map fun e => (e.1, e.2 || f r e.1) } }

/-- Mark items of the current hold and of one that waits behind it. -/
def markItems (s : State) (f : HoldReq → LateItem → Bool) : State :=
  { s with hold := s.hold.map (·.mark f), nextHold := s.nextHold.map (·.mark f) }

/-- Every late item of every request has arrived. -/
def Hold.ready (h : Hold) : Bool := h.reqs.all fun r => r.items.all (·.2)

/-- HOLD_STATE.PENDING: the causes with an item that has not arrived (R112). -/
def Hold.pendingCauses (h : Hold) : Nat :=
  h.reqs.foldl (fun m r => if r.items.all (·.2) then m else m ||| 2 ^ r.cause) 0

/-- The causes that took part (R97). -/
def Hold.causes (h : Hold) : Nat := h.reqs.foldl (fun m r => m ||| 2 ^ r.cause) 0

/-- The order of R97 among requests: earliest tick, lowest panel, streams before other units, lowest unit. -/
def HoldReq.key (r : HoldReq) : Nat := ((r.seq * 8 + r.panel) * 2 + b2n r.other) * 4096 + r.unit

/-- The first request of a hold (R97); in stream order within one stream, as the list keeps it. -/
def Hold.first (h : Hold) : Option HoldReq := minOn? HoldReq.key h.reqs

/-! ## The log (R97, R113 to R115) -/

/-- The eight words of a hold record (R113). -/
def holdRecord (h : Hold) (seq time ptc len : Nat) : List Word :=
  let w (n : Nat) : Word := BitVec.ofNat 32 n
  let (cause, src) := match h.first with
    | none => (0, 0)
    | some r => (r.cause, b2n r.other * 2 ^ 15 + r.panel * 2 ^ 12 + r.unit)
  let l := Nat.min len 0xFFFFFFFF
  [w seq, w (h.causes + cause * 2 ^ 8 + src * 2 ^ 16), w time, w (time / 2 ^ 32), w ptc, w (ptc / 2 ^ 32), w l, w seq]

/-- Add to HOLD_COUNTk and HOLD_TICKSk of one cause (R114). -/
def countCause (s : State) (len k : Nat) : State :=
  (s.incReg .hold (0x80 + 4 * k)).setReg64 .hold (0xA0 + 8 * k) (Nat.min (s.reg64 .hold (0xA0 + 8 * k) + len) (2 ^ 64 - 1))

/-- A hold ends (R97, R115): log record, counters, EVR_HOLDS and trigger 2 of the recorders in its scope (R467). -/
def recordHold (s : State) (h : Hold) (time ptc len : Nat) : State :=
  let s1 := if s.regBit .hold 0x40 2 then
      { s with holdLog := FMap.put [] s.holdLog (s.holdSeq % 1024) (holdRecord h s.holdSeq time ptc len), holdSeq := (s.holdSeq + 1) % 2 ^ 32 }
    else s
  let s2 := (setBitsOf 8 h.causes).foldl (fun s k => countCause s len k) s1
  let s3 := s2.setRegN .hold 0xE0 (Nat.max (s2.regN .hold 0xE0) (Nat.min len 0xFFFFFFFF))
  (recorders s).foldl (fun s r =>
    if r = 8 ∨ h.reqs.any (fun q => q.panel == r) then trigger (s.incReg (evrBlk r) 0x58) r 2 0 0 0 else s) s3

/-! ## Commands -/

/-- HOLD_FREEZE (R91, R92, R112): 24 pt after the request every unit of the package freezes. -/
def holdFreeze (s : State) : State :=
  match s.hold with
  | some h =>
    if !h.frozen && decide (h.freezeAt ≤ s.wall) then
      let s1 := { s with hold := some { h with frozen := true, time := s.time, ptc := s.ptc } }
      if bitOf h.causes 6 then raiseIrq s1 .hold 0 else s1
    else s
  | none => s

/-- Every PLANNED stack starts an all-bank refresh (R100). -/
def refreshPlanned (s : State) : State :=
  (allStacks s).foldl (fun s e =>
    if planned s e.1 e.2 then
      let h := s.hbmStack e.1 e.2
      s.setHbmStack e.1 e.2 { h with refreshUntil := Nat.max h.refreshUntil (s.wall + nsToPeriods s (refreshNs s)) }
    else s) s

/-- HOLD_PERIODIC_REFRESH (R100, R501): the doubled rate: refresh n comes in the first period that begins 1,950 n ns after the freeze
or later. -/
def holdPeriodicRefresh (s : State) : State :=
  match s.hold with
  | some h =>
    if h.frozen && anyPlanned s && decide (nsToPeriods s ((h.refreshes + 1) * 1950) ≤ h.ticks) then
      refreshPlanned { s with hold := some { h with refreshes := h.refreshes + 1, refreshUntil := some (s.wall + nsToPeriods s (refreshNs s)) } }
    else s
  | none => s

/-- A hold refresh is in progress (R95, HOLD_STATE.REFRESH). -/
def refreshing (s : State) (h : Hold) : Bool :=
  match h.refreshUntil with
  | none => false
  | some w => decide (s.wall < w)

/-- The hold has lasted longer than HOLD_REF_THRESH ns, by its held ticks: TIME can be stepped meanwhile. -/
def longHold (s : State) (h : Hold) : Bool := decide (s.regN .hold 0x4C % 2048 * 15 < h.ticks * periodFifteenths s)

/-- Only the added refresh of R100 is missing before the broadcast. The model adds one to a hold, also when a request that joins during
or after it defers the broadcast again: R100 does not say whether another one follows then (log entry 132, DESIGN CHOICE). -/
def refreshNeeded (s : State) (h : Hold) : Bool :=
  h.frozen && h.ready && h.broadcast.isNone && !refreshing s h && !h.finalDone && longHold s h && anyPlanned s

/-- HOLD_REFRESH (R100): one more all-bank refresh before the broadcast of a long hold. -/
def holdRefresh (s : State) : State :=
  match s.hold with
  | some h =>
    if refreshNeeded s h then
      refreshPlanned { s with hold := some { h with finalDone := true, refreshUntil := some (s.wall + nsToPeriods s (refreshNs s)) } }
    else s
  | none => s

/-- RESUME_BROADCAST (R95): every late item has arrived and no hold refresh is in progress or due. -/
def resumeBroadcast (s : State) : State :=
  match s.hold with
  | some h =>
    if h.frozen && h.ready && h.broadcast.isNone && !refreshing s h && !refreshNeeded s h then
      { s with hold := some { h with broadcast := some s.wall } }
    else s
  | none => s

/-- HOLD_RESUME (R95, R97): 24 pt after the broadcast PTC advances again, and the hold is recorded. -/
def holdResume (s : State) : State :=
  match s.hold with
  | some h =>
    match h.broadcast with
    | some w =>
      if h.frozen && decide (w + 24 ≤ s.wall) then
        recordHold { s with hold := s.nextHold, nextHold := none } h h.time.toNat h.ptc.toNat h.ticks
      else s
    | none => s
  | none => s

/-- HOLD_WATCHDOG_EXPIRE (R101, R462): once per hold; with WATCH_STOP and no pending DEBUG request, HOLD_STUCK. -/
def holdWatchdogExpire (s : State) : State :=
  match s.hold with
  | some h =>
    let us := s.regN .hold 0x50 % 2 ^ 16
    if h.frozen && !h.watched && us != 0 && decide (us * 1000 ≤ s.time.toNat - h.time.toNat) then
      let s1 := raiseIrq { s with hold := some { h with watched := true } } .hold 1
      if s.regBit .flt 0x40 3 && !bitOf h.pendingCauses 6 then raiseErr s1 .flt 1 else s1
    else s
  | none => s

/-- DEBUG_HOLD (R91, R112): the holder, unit 2 of panel 0, raises a DEBUG request. -/
def debugHold (s : State) : State := raiseHold s 6 0 true 2 [.debug]

/-- DEBUG_RELEASE (R96): the DEBUG requests raised before this write arrive. -/
def debugRelease (s : State) : State := markItems s fun r i => decide (i = .debug) && decide (r.seq < s.wall)

/-- PLAN_SNAP_TAKE (R111). -/
def planSnapTake (s : State) : State :=
  let step := match physOf s 0 with
    | some k => (s.core k).step.toNat
    | none => 0
  ((s.setReg64 .plan 0x48 s.ptc.toNat).setReg64 .plan 0x50 s.time.toNat).setReg64 .plan 0x58 step

/-- HOLD_FREEZE. -/
def execHoldFreeze (s : State) := act s holdFreeze
/-- HOLD_PERIODIC_REFRESH. -/
def execHoldPeriodicRefresh (s : State) := act s holdPeriodicRefresh
/-- HOLD_REFRESH. -/
def execHoldRefresh (s : State) := act s holdRefresh
/-- RESUME_BROADCAST. -/
def execResumeBroadcast (s : State) := act s resumeBroadcast
/-- HOLD_RESUME. -/
def execHoldResume (s : State) := act s holdResume
/-- HOLD_WATCHDOG_EXPIRE. -/
def execHoldWatchdogExpire (s : State) := act s holdWatchdogExpire
/-- DEBUG_HOLD. -/
def execDebugHold (s : State) := actBy 0 s debugHold
/-- DEBUG_RELEASE. -/
def execDebugRelease (s : State) := actBy 0 s debugRelease
/-- PLAN_SNAP_TAKE. -/
def execPlanSnapTake (s : State) := actBy 0 s planSnapTake

end Sys2Proof.Machine
end

