-- ==== Sys2Proof/Machine/Fetch.lean ====
section
/-! DEFINITION. Chart fetch: the walk in stream order, granule requests and their return (R51, R52, R65, R71, R239). -/

namespace Sys2Proof.Machine

/-! ## Requests to the HBM controllers (R235) -/

/-- An access by core `k` to domain i of panel p, which is not ON: PWR_DOMAIN_OFF, the first one recorded (R406, R417). -/
def domainOff (s : State) (k p i : Nat) : State :=
  raiseErr (recordFirst s (.pwr p) 0x70 0 0 fun s => s.setRegN (.pwr p) 0x70 (2 ^ 31 + i * 2 ^ 16 + k / 288 * 2 ^ 9 + k % 288)) (.pwr p) 1

/-- An access that no core has issued needs domain i of panel p, which is not ON (R406, R417). -/
def domainOffHost (s : State) (p i : Nat) : State :=
  raiseErr (recordFirst s (.pwr p) 0x70 0 0 fun s => s.setRegN (.pwr p) 0x70 (2 ^ 31 + i * 2 ^ 16 + Config.noIssuingCore.toNat)) (.pwr p) 1

/-- Bytes of a memory with writes (address and bytes, first to last) laid over them. -/
def laidOver (writes : List (Nat × List Byte)) (m : Mem) (a n : Nat) : List Byte :=
  if writes.isEmpty then Mem.bytes m a n
  else (Mem.bytes m a n).mapIdx fun i b => writes.foldl (fun v w => if w.1 ≤ a + i ∧ a + i < w.1 + w.2.length then w.2.getD (a + i - w.1) 0 else v) b

/-- Bytes of HBM as a request that reaches the controllers now sees them: queued writes that have arrived are seen
(R235, R239). -/
def hbmSeen (s : State) (a n : Nat) : List Byte :=
  let (p, st, _, _) := hbmPlace s a
  laidOver ((s.hbmStack p st).queue.filterMap fun g => match g.kind with
    | .write bs | .hostWrite bs => if g.arrival ≤ s.wall then some (g.dev, bs) else none
    | _ => none) s.hbm a n

/-- Add a granule request to the queue of its stack; the queue keeps the order of sending. -/
def sendGranule (s : State) (g : Granule) : State :=
  let (p, st, _, _) := hbmPlace s g.dev
  let h := s.hbmStack p st
  s.setHbmStack p st { h with queue := h.queue ++ [g] }

/-- The port index of a request at its controller (R102, R235): the core's virtual core number on its own panel; on another panel
2,048 + m of the inbound die-to-die port at which it arrives. -/
def hbmPort (s : State) (k a : Nat) : Nat :=
  let p := (hbmPlace s a).1
  if p = k / 288 then virtOf s k else inboundPort (k / 288) p

/-- The request's way to a controller: 16 pt on the core's panel, 64 pt to another (R235). -/
def hbmTravel (s : State) (k a : Nat) : Nat := if (hbmPlace s a).1 = k / 288 then 16 else 64

/-! ## The walk (R49, R52, R65, R71) -/

/-- Leave the descriptor (or skipped body) that ends at address `q`: the loops that stay open, and the next address, or
none when an indirect count must be latched first. -/
def fetchLeave (q : Nat) : List FetchLoop → List FetchLoop × Option Nat
  | [] => ([], some (q + 64))
  | l :: ls =>
    if l.last = q then
      match l.count with
      | none => (l :: ls, none)
      | some n =>
        let again : FetchLoop := { l with iter := l.iter + 1 }
        if l.iter + 1 < n then (again :: ls, some l.first) else fetchLeave q ls
    else (l :: ls, some (q + 64))

/-- The words of the descriptor at a place of a byte list. -/
def descAt (bytes : List Byte) (off : Nat) : Desc :=
  (List.range 16).map fun i => BitVec.ofNat 32 (leNat ((bytes.drop (off + 4 * i)).take 4))

/-- The granules of the REPEATs whose bodies end at address `q`: where fetch goes on depends on their counts. -/
def flowGranules (q : Nat) : List FetchLoop → List Nat
  | [] => []
  | l :: ls => if l.last = q then l.gran :: flowGranules q ls else []

/-- Follow the stream order through a granule whose bytes are at hand, for at most `fuel` descriptors. A CHAIN, and a REPEAT whose
count decides where fetch goes on, must be decoded before the next request (R65, R71). -/
def fetchWalk (base : Nat) (hbmBase : Nat) (bytes : List Byte) (id : Nat) : Nat → Nat → Fetch → Fetch
  | 0, p, f => { f with next := some p }
  | fuel + 1, p, f =>
    if p < base ∨ base + 256 ≤ p then { f with next := some p }
    else
      let d := descAt bytes (p - base)
      let here : Fetched := { addr := p, desc := d, gran := id }
      let f1 : Fetch := { f with window := f.window ++ [here] }
      let ctl := dEng d = 8
      if ctl ∧ dOpc d = 3 then { f1 with next := none }
      else if ctl ∧ dOpc d = 2 then
        { f1 with next := some ((dw d 4 + 2 ^ 32 * bits (dw d 5) 0 16 + hbmBase) % 2 ^ 48), loops := [], stall := [id] }
      else
        let body := bits (dw d 5) 0 13
        let indirect := bitOf (dw d 4) 24
        let count := dw d 4 % 2 ^ 24
        if ctl ∧ dOpc d = 1 ∧ (indirect ∨ count ≠ 0) then
          fetchWalk base hbmBase bytes id fuel (p + 64)
            { f1 with loops := ⟨p + 64, p + 64 * body, if indirect then none else some count, 0, id⟩ :: f.loops }
        else
          let skipped := ctl ∧ dOpc d = 1
          let q := if skipped then p + 64 * body else p
          let flow := flowGranules q f.loops ++ (if skipped then [id] else [])
          match fetchLeave q f.loops with
          | (ls, none) => { f1 with loops := ls, next := none, wait := true }
          | (ls, some nx) =>
            if nx = p + 64 ∧ flow = [] then fetchWalk base hbmBase bytes id fuel nx { f1 with loops := ls }
            else { f1 with loops := ls, next := some nx, stall := flow }

/-- Descriptors that the stream holds or has requested and that have not issued (R51). -/
def heldDescriptors (st : Stream) : Nat :=
  st.tr.fetch.window.length + (st.old.elim 0 fun o => o.fetch.window.length) + st.nextFetch.window.length + st.checked.length

/-- Fetch granules outstanding (R239). -/
def outstanding (st : Stream) : Nat := st.tr.fetch.out.length + (st.old.elim 0 fun o => o.fetch.out.length) + st.nextFetch.out.length

/-- Whether a fetch may request its next granule, and its address (R65, R71, R239). -/
def fetchWants (s : State) (st : Stream) (f : Fetch) : Option Nat :=
  match f.next with
  | none => none
  | some a =>
    if hbmAddrOk s a && decide (heldDescriptors st + 4 ≤ 256) && decide (outstanding st < 16)
        && !f.wait && f.stall.all (fun id => f.out.all fun g => g.id != id) then some a else none

/-- Make the request of the next granule of a fetch. -/
def fetchRequest (s : State) (k a : Nat) (f : Fetch) : State × Fetch :=
  let c := s.core k
  let g := a - a % 256
  let (p, _, _, _) := hbmPlace s a
  let off := !domOn s p 9
  let guess := if off then List.replicate 256 0 else hbmSeen s g 256
  let hbmBase := s.reg64 (.str (k / 288) (k % 288)) 0x60
  let f1 := fetchWalk g hbmBase guess c.nextOp 4 a { f with stall := [], next := none }
  let arrival := s.wall + hbmTravel s k a
  let gran : FetchGranule := { id := c.nextOp, addr := g, entry := a, loops := f.loops, guess := guess
                               bytes := if off then guess else [], ready := if off then some arrival else none }
  let s1 := s.setCore k { c with nextOp := c.nextOp + 1 }
  let s2 := if off then domainOff s1 k p 9
    else sendGranule s1 { kind := .fetch, core := k, op := c.nextOp, order := c.nextOp, dev := g, beat := 0, beats := 4, dst := 0
                          arrival := arrival, port := hbmPort s k a }
  (s2, { f1 with out := f1.out ++ [gran] })

/-- Apply a change of one of a stream's fetches, in stream order: of a replaced segment (R70), of the running chart, of a waiting
launch; none when it applies to none of them. -/
def onFetch (s : State) (k : Nat) (change : State → Fetch → Option (State × Fetch)) : Option State :=
  let st := (s.core k).stream
  let ofOld := match st.old with
    | some o => (change s o.fetch).map fun e => e.1.modStream k fun st => { st with old := some { o with fetch := e.2 } }
    | none => none
  ofOld <|> ((change s st.tr.fetch).map fun e => e.1.modStream k fun st => { st with tr := { st.tr with fetch := e.2 } })
    <|> ((change s st.nextFetch).map fun e => e.1.modStream k fun st => { st with nextFetch := e.2 })

/-- FETCH_GRANULE_REQUEST: the next granule in stream order. -/
def fetchGranuleRequest (k : Nat) (s : State) : State :=
  if s.flt.stopped || s.clk.switching.isSome then s
  else (onFetch s k fun s f => (fetchWants s (s.core k).stream f).map fun a => fetchRequest s k a f).getD s

/-- A returned granule's descriptors are decoded. When it returned other bytes than those the walk went on with, the walk is done
again from this granule, and what was requested behind it is dropped. -/
def fetchTake (s : State) (hbmBase : Nat) (f : Fetch) (g : FetchGranule) : Fetch :=
  let f1 := if g.bytes = g.guess then { f with out := f.out.filter fun x => x.id != g.id }
    else fetchWalk g.addr hbmBase g.bytes g.id 4 g.entry
      { f with window := f.window.takeWhile (fun d => d.gran != g.id), out := f.out.takeWhile (fun x => x.id != g.id), loops := g.loops
               next := none, stall := [], wait := false }
  { f1 with window := f1.window.map fun d => if d.gran = g.id then { d with tick := some s.wall } else d }

/-- Decode the first granule of a fetch that has returned; none when there is none. -/
def fetchDecode (s : State) (hbmBase : Nat) (f : Fetch) : Option Fetch :=
  (f.out.find? fun g => g.ready.any fun r => decide (r ≤ s.wall)).map (fetchTake s hbmBase f)

/-- Write STR_SLIP_TAG when the descriptor that a request waits for has been decoded (R54). -/
def slipTagDue (s : State) (k : Nat) : State :=
  let due (t : Track) : Option Fetched := t.fetch.window.head?.bind fun w => if t.slipPending && w.tick.isSome then some w else none
  let st := (s.core k).stream
  let write (s : State) (w : Fetched) : State := s.setRegN (.str (k / 288) (k % 288)) 0x7C (dTag w.desc)
  match st.old.bind due, due st.tr with
  | some w, _ => write (s.modStream k fun st => { st with old := st.old.map fun o => { o with slipPending := false } }) w
  | none, some w => write (s.modStream k fun st => { st with tr := { st.tr with slipPending := false } }) w
  | none, none => s

/-- FETCH_GRANULE_RETURN: a returned granule's descriptors are decoded; a late item that waited for them may arrive (R94). -/
def fetchGranuleReturn (k : Nat) (s : State) : State :=
  let hbmBase := s.reg64 (.str (k / 288) (k % 288)) 0x60
  slipTagDue ((onFetch s k fun s f => (fetchDecode s hbmBase f).map fun f => (s, f)).getD s) k

/-- The outermost loop that waits for its count has it. -/
def latchLoops (n : Nat) (loops : List FetchLoop) : List FetchLoop :=
  let rev := loops.reverse
  match rev.dropWhile fun x => x.count.isSome with
  | [] => loops
  | l :: inner => inner.reverse ++ { l with count := some n } :: (rev.takeWhile fun x => x.count.isSome).reverse

/-- The count of the outermost loop that waits for one is latched (R65): fetch goes on, or drops the body for a count of 0. -/
def fetchLatch (f : Fetch) (n : Nat) : Fetch :=
  let rev := f.loops.reverse
  match rev.find? fun l => l.count.isNone with
  | none => f
  | some l =>
    let inner := ((rev.dropWhile fun x => x.count.isSome).drop 1).reverse
    let outer := (rev.takeWhile fun x => x.count.isSome).reverse
    if n = 0 then
      let (ls, nx) := fetchLeave l.last outer
      { f with window := [], out := [], loops := ls, next := nx, wait := nx.isNone, stall := [] }
    else
      let out := f.out.map fun g => { g with loops := latchLoops n g.loops }
      if f.wait && inner.isEmpty then
        let (ls, nx) := fetchLeave l.last (latchLoops n f.loops)
        { f with out := out, loops := ls, next := nx, wait := nx.isNone }
      else { f with out := out, loops := latchLoops n f.loops }

/-- The physical core key of a command's core, when it is an enabled slot. -/
def coreOf (s : State) (c : CoreId) : Option Nat :=
  if c.panel < s.fuses.panels ∧ slotEnabled s c.panel c.core then some (coreKey c.panel c.core) else none

/-- A command on a core: no effect on a slot that is not enabled (R22). -/
def onCore (s : State) (c : CoreId) (f : Nat → State → State) : State :=
  match coreOf s c with
  | some k => f k s
  | none => s

/-- FETCH_GRANULE_REQUEST. -/
def execFetchGranuleRequest (c : CoreId) (s : State) := act s fun s => onCore s c fetchGranuleRequest
/-- FETCH_GRANULE_RETURN. -/
def execFetchGranuleReturn (c : CoreId) (s : State) := act s fun s => onCore s c fetchGranuleReturn

end Sys2Proof.Machine
end

