-- ==== Sys2Proof/Machine/Stream.lean ====
section
/-! DEFINITION. The descriptor streams: launch, segment start, the issue check and its faults, late items and breaks
(R48 to R85), the heavy-unit budget (R407, R408) and the scoreboard (R55 to R61). -/

namespace Sys2Proof.Machine

/-! ## Faults of a stream (R74, R81) -/

/-- The stream block of a core. -/
def strBlk (k : Nat) : Blk := .str (k / 288) (k % 288)

/-- A segment whose checks have stopped for good. -/
def Track.stopped (t : Track) : Track :=
  { t with pos := none, loops := [], fetch := {}, requested := false, slipPending := false }

/-- The stream enters FAULTED and records the first fault after a launch; descriptors that have passed their check
still issue (R52, log entry 21). -/
def streamFault (s : State) (k code field eng opc addr ptc : Nat) : State :=
  let b := strBlk k
  let s1 := s.modStream k fun st =>
    { st with st := .faulted, tr := st.tr.stopped, old := none, nextFetch := {}, launch := none, waiting := none }
  let s2 := if s.regN b 0x4C % 256 = 0 then
      ((s1.setRegN b 0x4C (field * 2 ^ 24 + opc * 2 ^ 16 + eng * 2 ^ 12 + code)).setReg64 b 0x50 addr).setReg64 b 0x58 ptc
    else s1
  raiseErr s2 b code

/-- STR_FAULT and its companions at their reset values (R81). -/
def clearStreamFault (s : State) (k : Nat) : State :=
  let b := strBlk k
  ((s.setReg b 0x4C (resetWord b 0x4C)).setReg64 b 0x50 0).setReg64 b 0x58 0

/-! ## Launch (R68 to R70) -/

/-- The plane sets are EMPTY and the bank CLOSED (R152, R155). -/
def clearArray (c : Core) : Core := { c with set0 := none, set1 := none, bank := { c.bank with isOpen := false } }

/-- The chart address of a launch after STR_HBM_BASE is added. -/
def chartAddr (s : State) (k : Nat) : Nat := (s.reg64 (strBlk k) 0x90 + s.reg64 (strBlk k) 0x60) % 2 ^ 48

/-- A launch is late (R69, R81): it is discarded, and the stream enters FAULTED whatever its state. -/
def launchLate (s : State) (k addr ptc : Nat) : State := streamFault s k 8 15 8 0 addr ptc

/-- STR_GO (R69, R70, R81, R281, R460). STR_HBM_BASE is added to the chart address at this write: a later write of it does not move an
armed launch (R82 speaks of issue checks only; log entry 133, DESIGN CHOICE). -/
def strGo (timed : Bool) (k : Nat) (s : State) : State :=
  let b := strBlk k
  if !writable s b then s
  else if s.flt.stopped then s.countNoEffect b
  else
    let s0 := clearStreamFault (s.setRegN b 0xA0 (2 * b2n timed)) k
    let start := s.reg64 b 0x98
    let chart := chartAddr s k
    let held := s.castSt == .arrived
    if !held && decide (start < s.ptc.toNat + 64) then launchLate s0 k chart s.ptc.toNat
    else
      let fresh := (s.core k).stream.st == .faulted
      let s1 := if fresh then s0.modCore k clearArray else s0
      s1.modStream k fun st =>
        { st with
          launch := some ⟨chart, start, timed, held⟩
          st := if st.st == .running then .running else .armed
          waiting := none
          nextFetch := { next := some chart } }

/-- The effects of a start tick S: empty tag slots and STR_ISSUED 0 (R62, R83); what a redirected segment has not issued is
discarded (R70). -/
def startTick (s : State) (k : Nat) : State :=
  match (s.core k).stream.startDue with
  | some t =>
    if t ≤ s.ptc.toNat then
      s.modCore k fun c => { c with
        tags := []
        stream := { c.stream with startDue := none, issued := 0, lastIssue := 0, old := none
                                  checked := c.stream.checked.filter fun q => q.seg == c.stream.tr.seg } }
    else s
  | none => s

/-- Count a schedule slip and its TAG (R54, R83); none: the TAG of the descriptor at `pos`, when it is decoded. -/
def slip (s : State) (k : Nat) (tag : Option Nat) : State :=
  let s1 := s.incReg (strBlk k) 0x78
  match tag with
  | some t => s1.setRegN (strBlk k) 0x7C t
  | none => slipTagDue (s1.modStream k fun st => { st with tr := { st.tr with slipPending := true } }) k

/-- The first descriptor of a fetch has been fetched and decoded in an earlier tick (R59). -/
def headReady (s : State) (f : Fetch) : Bool :=
  match f.window with
  | w :: _ => (match w.tick with
    | some t => decide (t < s.wall)
    | none => false)
  | [] => false

/-- The source unit of a stream in a hold request (R113). -/
def holdFromStream (s : State) (k cause : Nat) (items : List LateItem) : State := raiseHold s cause (k / 288) false (k % 288) items

/-- SEGMENT_START (R68, R70, R52 step 6 for the first descriptor): at S − 32 the stream enters RUNNING with the new chart. A segment
that is redirected stays beside it until S, for its descriptors whose issue tick is earlier than S. STR_SEG_START and
STR_STATE.TIMED show the new segment from S − 32 on: R79 and R84 do not say when the current segment changes (log entry 134,
DESIGN CHOICE). -/
def segmentStart (k : Nat) (s : State) : State :=
  let st := (s.core k).stream
  match st.launch with
  | none => s
  | some l =>
    if !ptcRuns s || l.unchecked || decide (s.ptc.toNat + 32 < l.start) || (st.st != .armed && st.st != .running) then s
    else
      let s1 := s.modStream k fun st =>
        { st with
          st := .running, segStart := l.start, startDue := some l.start, launch := none, nextFetch := {}
          tr := { seg := st.tr.seg + 1, timed := l.timed, pos := some l.chart, top := l.start, fetch := st.nextFetch }
          old := if st.tr.pos.isSome then some st.tr else none }
      let s2 := startTick ((s1.setReg64 (strBlk k) 0xA8 l.start)) k
      if !hbmAddrOk s l.chart then streamFault s2 k 4 15 0 0 l.chart s.ptc.toNat
      else if l.timed && !headReady s st.nextFetch then slip (holdFromStream s2 k 0 [.fetch k]) k none
      else s2

/-! ## Stream order (R49, R52 step 6, R64) -/

/-- Where the stream goes after the descriptor (or skipped body) that ends at address `q`, with the frame base `b` of the
level it stands on: the open loops, the top-level frame base, the next address, and whether an inner loop's end has
passed the end of its parent's iteration (R50). -/
def leave (q : Nat) (top : Nat) : List Loop → Option Nat → List Loop × Nat × Nat × Bool
  | [], b => ([], b.getD top, q + 64, false)
  | l :: ls, b =>
    if l.last = q then
      let again : Loop := { l with iter := l.iter + 1, frame := l.entry + (l.iter + 1) * l.period }
      if l.iter + 1 < l.count then (again :: ls, top, l.first, false)
      else
        let e := l.entry + l.count * l.period
        let late := match ls with
          | [] => false
          | m :: _ => decide (m.entry + (m.iter + 1) * m.period < e)
        let (ls1, top1, nx, o) := leave q top ls (some e)
        (ls1, top1, nx, o || late)
    else ({ l with frame := b.getD l.frame } :: ls, top, q + 64, false)

/-- The frame base of the descriptor to check (R49). -/
def frameBase (st : Track) : Nat := match st.loops with
  | l :: _ => l.frame
  | [] => st.top

/-- Where the stream stands after descriptor `d` at address `p` with issue tick `t` and, for a REPEAT, count `n`:
loops, top-level frame base, next address, and the overrun of R50. -/
def after (st : Track) (d : Desc) (hbmBase p t n : Nat) : List Loop × Nat × Option Nat × Bool :=
  if dEng d = 8 ∧ dOpc d = 3 then ([], st.top, none, false)
  else if dEng d = 8 ∧ dOpc d = 2 then ([], t, some ((dw d 4 + 2 ^ 32 * bits (dw d 5) 0 16 + hbmBase) % 2 ^ 48), false)
  else if dEng d = 8 ∧ dOpc d = 1 ∧ n ≠ 0 then
    (⟨p + 64, p + 64 * dw d 5, n, 0, t, dw d 6, t⟩ :: st.loops, st.top, some (p + 64), false)
  else
    let skipped := dEng d = 8 ∧ dOpc d = 1
    let (ls, top, nx, o) := leave (if skipped then p + 64 * dw d 5 else p) st.top st.loops (if skipped then some t else none)
    (ls, top, some nx, o)

/-! ## Step 1 (R74) -/

/-- A REPEAT, CHAIN or END that the open loops do not allow (R67). -/
def nestingOk (st : Track) (d : Desc) (p : Nat) : Bool :=
  if dEng d = 8 ∧ dOpc d = 1 then
    decide (st.loops.length < 4) && (match st.loops with
      | l :: _ => decide (p + 64 * dw d 5 ≤ l.last)
      | [] => true)
  else if dEng d = 8 ∧ (dOpc d = 2 ∨ dOpc d = 3) then st.loops.isEmpty
  else true

/-- The field of an operand in CORE space whose virtual core is absent (R74, R206). -/
def absentCore (s : State) (d : Desc) : Option Nat :=
  ((operandsOf d).find? fun e => e.2.space == 3 && (physOf s (bits e.2.base 17 11)).isNone).map (·.1)

/-- Step 1 of R52: the fault code and FIELD. -/
def faultStep1 (s : State) (k : Nat) (d : Desc) (p : Nat) : Option (Nat × Nat) :=
  if !validDesc d || !nestingOk (s.core k).stream.tr d p then some (1, invalidField d)
  else if dEng d ≠ 8 ∧ !s.regBit (strBlk k) 0x48 (dEng d) then some (2, 15)
  else (absentCore s d).map fun i => (2, i)

/-! ## Steps 2 and 3 -/

/-- Step 2 of R52: the conditions of R50 hold for issue tick `t`. -/
def orderOk (st : Track) (d : Desc) (t : Nat) : Bool :=
  decide (st.prevTick ≤ t) && (st.prevTick != t || (decide (st.tickEngs.length < 4) && !st.tickEngs.contains (dEng d)))
  && !st.overrun && st.loops.all fun l => decide (t < l.entry + (l.iter + 1) * l.period)

/-- Iteration indices i0 and i1 (R44) and the innermost count n0 (R138). -/
def indices (st : Track) : Nat × Nat × Nat :=
  match st.loops with
  | [] => (0, 0, 0)
  | [l] => (l.iter, 0, l.count)
  | l :: m :: _ => (l.iter, m.iter, l.count)

/-- Step 3 of R52: REGION_BOUNDS before FMT_MISMATCH. -/
def faultStep3 (s : State) (k : Nat) (d : Desc) (i0 i1 : Nat) : Option (Nat × Nat) :=
  match (operandsOf d).find? fun e => !rangeOk s k e.2 (effBase s k e.2 i0 i1) with
  | some e => some (4, e.1)
  | none =>
    if dReinterp d then none
    else ((operandsOf d).find? fun e => e.2.space == 0 && (regionOf (s.core k) e.2.region).fmt != e.2.fmt).map fun e => (5, e.1)

/-- The effective base as an issued operation uses it: for a HOST operand the host address as the entry stands at the
check (R368), flat over functions. -/
def resolved (s : State) (k : Nat) (f : OpField) (i0 i1 : Nat) : Nat :=
  let e := (effBase s k f i0 i1).toNat
  if f.space = 5 then
    match hostBuf s (f.base / 2 ^ 40) with
    | some (a, _, fn) => 2 ^ 64 * fn + (a + e) % 2 ^ 64
    | none => e
  else e

/-- The effective bases of the three fields; 0 for a field that is no operand. -/
def resolvedAll (s : State) (k : Nat) (d : Desc) (i0 i1 : Nat) : List Nat :=
  [0, 1, 2].map fun i => match (operandsOf d).find? fun e => e.1 == i with
    | some e => resolved s k e.2 i0 i1
    | none => 0

/-! ## Producers (R57, R59, R63) -/

/-- An earlier incomplete descriptor that this one waits for: its number, the PTC value at which a fixed-latency one
completes, and the hold cause of a consumer that finds it late. -/
structure Producer where
  id : Nat
  fixedAt : Option Nat
  cause : Nat
  bound : Nat           -- PTC value by which a fixed-latency one must be complete
deriving DecidableEq, Repr

/-- Which beats of the decompressor's input came from the stash, in FIFO order: those in the FIFO, then those that the
incomplete FEEDs still append, issued or only checked (R186, R215). -/
def feedFlags (c : Core) : List Bool :=
  let isFeed (d : Desc) : Bool := dEng d == 0 && dOpc d == 4
  c.fifo.map (·.stash)
    ++ ((c.inflight.filter fun o => isFeed o.desc && o.done.isNone).flatMap fun o => List.replicate ((fld o.desc 0).extent - o.feedNext) o.fromStash)
    ++ ((c.stream.checked.filter fun q => isFeed q.desc).flatMap fun q => List.replicate (fld q.desc 0).extent ((fld q.desc 0).space == 2))

/-- The EXPANDs that have not taken all their input, issued or only checked, each with the beats it has still to take. -/
def expandQueue (c : Core) : List (Nat × Nat) :=
  ((c.inflight.filter fun o => o.eng == 7 && o.done.isNone).map fun o => (o.id, dw o.desc 13 - o.feedNext))
    ++ ((c.stream.checked.filter fun q => dEng q.desc == 7).map fun q => (q.id, dw q.desc 13))

/-- Whether an EXPAND will still take beats that came from the stash (R215). -/
def expandFromStash (c : Core) (id : Nat) : Bool :=
  let before := ((expandQueue c).takeWhile fun e => e.1 != id).foldl (fun n e => n + e.2) 0
  match (expandQueue c).find? fun e => e.1 == id with
  | some e => ((feedFlags c).drop before).take e.2 |>.any fun b => b
  | none => false

/-- The hold cause that a consumer names when it finds a variable-latency descriptor late (R54, R215). -/
def lateCause (c : Core) (id : Nat) (d : Desc) : Nat :=
  let f0 := fld d 0
  match dEng d with
  | 0 => if f0.space = 2 ∧ (dOpc d = 1 ∨ dOpc d = 4) then 2 else if dOpc d = 1 ∧ (fld d 1).space = 4 then 1 else 0
  | 5 => 1
  | 7 => if expandFromStash c id then 2 else 0
  | _ => 0

/-- The PTC value at which a fixed-latency operation that is in flight is complete. -/
def fixedEnd (s : State) (o : Op) (dur : Nat) : Nat := s.ptc.toNat + (dur - o.age)

/-- An issued descriptor as a producer, unless it is complete as ticks before this one show it (R59). -/
def opProducer (s : State) (c : Core) (bound : Nat) (o : Op) : Option Producer :=
  if opDoneBefore s o then none
  else match o.work with
    | .fixed dur => if o.done.isSome ∧ s.ptc.toNat ≤ bound then none else some ⟨o.id, some (fixedEnd s o dur), 0, bound⟩
    | _ => some ⟨o.id, none, if o.eng = 7 then (if o.fromStash || expandFromStash c o.id then 2 else 0) else o.cause, bound⟩

/-- A checked descriptor as a producer. -/
def checkedProducer (c : Core) (bound : Nat) (q : Checked) : Producer :=
  match (opPlan q.desc).dur with
  | some n => ⟨q.id, some (q.tick + n), 0, bound⟩
  | none => ⟨q.id, none, lateCause c q.id q.desc, bound⟩

/-- The producers over region slots (R57). -/
def slotProducers (s : State) (c : Core) (d : Desc) (bound : Nat) : List Producer :=
  let uses := slotUses d
  (c.inflight.filter fun o => slotConflict o.slots uses).filterMap (opProducer s c bound)
    ++ (c.stream.checked.filter fun q => slotConflict (slotUses q.desc) uses).map (checkedProducer c bound)

/-- Step 4 of R52: a dependency tag is not recorded in its slot (R63). -/
def tagMiss (c : Core) (d : Desc) : Bool :=
  (dDeps d).any fun t => t != 0 && (match FMap.look none c.tags (t % 256) with
    | some (u, _) => u != t
    | none => true)

/-- The producers that the dependency tags name (R63). -/
def tagProducers (s : State) (c : Core) (d : Desc) (t : Nat) : List Producer :=
  ((dDeps d).filter (· != 0)).filterMap fun g => match FMap.look none c.tags (g % 256) with
    | some (_, id) => match c.inflight.find? fun o => o.id == id with
      | some o => opProducer s c t o
      | none => none
    | none => none

/-- A fixed-latency producer that is not complete by its bound (R59). -/
def Producer.early (p : Producer) : Bool := match p.fixedAt with
  | some x => decide (p.bound < x)
  | none => false

/-! ## Step 5: occupancy and the stitch array's state (R60, R164, R166, R180) -/

/-- Plane set tags and the bank as earlier descriptors of the stream leave them (R164). -/
structure SaView where
  tag0 : Option (Nat × Nat × Nat)
  tag1 : Option (Nat × Nat × Nat)
  isOpen : Bool
  q : Int
deriving DecidableEq, Repr

/-- The tag of a plane set. -/
def PlaneSet.tag (x : PlaneSet) : Nat × Nat × Nat := (x.fmt, x.g, x.group)

/-- What a stitch array descriptor leaves. -/
def SaView.next (v : SaView) (d : Desc) : SaView :=
  if dEng d ≠ 1 then v
  else if dOpc d = 1 then
    let t := ((fld d 0).fmt, bits (dw d 8) 8 3, bits (dw d 8) 4 2)
    if bitOf (dw d 8) 0 then { v with tag1 := some t } else { v with tag0 := some t }
  else
    let w := dw d 12
    let v1 := if bitOf w 1 then { v with isOpen := true, q := lsqOf d } else v
    if bitOf w 2 then { v1 with isOpen := false } else v1

/-- The state that a MULTIPLY is compared with (R164). -/
def saView (c : Core) : SaView :=
  c.stream.checked.foldl (fun v q => v.next q.desc) ⟨c.set0.map (·.tag), c.set1.map (·.tag), c.bank.isOpen, c.bank.q⟩

/-- The stitch array fault of a MULTIPLY (R164): stream code and SA_FAULT code. -/
def saMismatch (c : Core) (d : Desc) : Option (Nat × Nat) :=
  if dEng d ≠ 1 ∨ dOpc d ≠ 2 then none
  else
    let v := saView c
    let w := dw d 12
    let tag := if bitOf w 0 then v.tag1 else v.tag0
    if tag ≠ some (bits w 12 4, bits w 8 3, bits w 4 2) then some (9, 2)
    else if !bitOf w 1 && (!v.isOpen || v.q != lsqOf d) then some (10, 4) else none

/-- Whether every datapath that a descriptor needs is free when it issues at `t` (R60, R166, R180). -/
def datapathFree (c : Core) (d : Desc) (t : Nat) : Bool :=
  let pl := opPlan d
  let sa := c.sa
  let set1 := bitOf (dw d (if dOpc d = 1 then 8 else 12)) 0
  (pl.busy == 0 || decide (FMap.look 0 c.engFree (dEng d) ≤ t))
  && (match pl.port with
    | none => true
    | some (a, n) => c.port.all fun (_, x, y) => decide (y ≤ t + a) || decide (t + a + n ≤ x))
  && (dEng d != 1 ||
    (if dOpc d = 1 then decide (sa.fill ≤ t) && decide ((if set1 then sa.mul1 else sa.mul0) ≤ t)
     else decide (sa.array ≤ t) && decide ((if set1 then sa.load1 else sa.load0) ≤ t)
      && (!bitOf (dw d 12) 2 || decide (sa.drain ≤ t + passes d + 3))))

/-- Occupy the datapaths of a descriptor that issues at `t`. -/
def occupy (c : Core) (d : Desc) (t : Nat) : Core :=
  let pl := opPlan d
  let c1 := if pl.busy = 0 then c else { c with engFree := FMap.put 0 c.engFree (dEng d) (t + pl.busy) }
  let c2 := match pl.port with
    | none => c1
    | some (a, n) => { c1 with port := c1.port ++ [(dEng d, t + a, t + a + n)] }
  if dEng d ≠ 1 then c2
  else
    let sa := c2.sa
    if dOpc d = 1 then
      let e := t + loadTicks d
      { c2 with sa := if bitOf (dw d 8) 0 then { sa with fill := e, load1 := e } else { sa with fill := e, load0 := e } }
    else
      let e := t + passes d
      let sa1 := if bitOf (dw d 12) 0 then { sa with array := e, mul1 := e } else { sa with array := e, mul0 := e }
      { c2 with sa := if bitOf (dw d 12) 2 then { sa1 with drain := e + 8 + 16 * drainW (fld d 1).fmt (bits (dw d 12) 20 2) } else sa1 }

/-! ## The budget (R407, R408) -/

/-- Charge a heavy unit of core `k` to the windows that [t, t + n) touches; the late tokens. -/
def chargeWindows (s : State) (k unit t n : Nat) : State × List LateItem :=
  let b := 64 * s.level
  let p := k / 288
  let id := 2 * (k % 288) + unit
  let lo := t / 1024
  (List.range ((t + n - 1) / 1024 + 1 - lo)).foldl (fun (acc : State × List LateItem) i =>
    let key := 8 * (lo + i) + p
    let w : Window := FMap.look {} acc.1.windows key
    if w.units.contains id then acc
    else
      let w1 : Window := { w with units := w.units ++ [id] }
      let s1 := { acc.1 with windows := FMap.put {} acc.1.windows key w1 }
      let cnt := w1.units.length
      let debt := if b < cnt then ceilDiv (1024 * (cnt - b)) b else 0
      (s1, if w.paid < debt then acc.2 ++ [.token key debt] else acc.2)) (s, [])

/-- The charge of a descriptor at its issue check. -/
def charge (s : State) (k : Nat) (d : Desc) (t : Nat) (timed : Bool) : State × List LateItem :=
  let n := (opPlan d).heavy
  if !timed || n = 0 || s.fuses.panels ≠ 8 then (s, []) else chargeWindows s k (dEng d - 1) t n

/-! ## Breaks (R75, R76) -/

/-- A break condition matches. -/
def breakMatch (s : State) (k : Nat) (d : Desc) : Bool :=
  let b := strBlk k
  let ctrl := s.regN b 0x40
  let tagReg := s.regN b 0x88
  let mask := tagReg / 2 ^ 16
  (bitOf ctrl 2 && s.reg64 b 0x80 == (s.core k).stream.tr.checkedCount + 1)
  || (bitOf ctrl 3 && dTag d &&& mask == (tagReg % 2 ^ 16) &&& mask)
  || (bitOf ctrl 4 && dEng d == 8 && dOpc d == 7)
  || (bitOf ctrl 5 && dEng d == 8 && dOpc d == 3)

/-- The DEBUG request of a break, its match found in state `s0`; a count break clears BRK_CNT_EN. -/
def doBreak (s0 s : State) (k : Nat) (d : Desc) : State :=
  let b := strBlk k
  let ctrl := s0.regN b 0x40
  let hit := bitOf ctrl 2 && s0.reg64 b 0x80 == (s0.core k).stream.tr.checkedCount + 1
  if breakMatch s0 k d then
    holdFromStream (if hit then s.setRegN b 0x40 (ctrl - 4) else s) k 6 [.debug]
  else s

/-- A DEBUG request of this stream is in a hold that has not ended. -/
def inBreak (s : State) (k : Nat) : Bool :=
  let mine (h : Hold) := h.reqs.any fun r => r.cause == 6 && !r.other && r.panel == k / 288 && r.unit == k % 288
  s.hold.any mine || s.nextHold.any mine

/-! ## The issue check (R52) -/

/-- A counter that a WAIT finds below its value, with its CAUSE. -/
def waitLate (s : State) (k : Nat) (d : Desc) : Option (Nat × Nat × Int) :=
  if dEng d = 8 ∧ dOpc d = 4 then
    let ctr := dw d 4 % 2 ^ 13
    let v := signed 32 (dw d 6)
    if counterSeen s k ctr < v then some (bits (dw d 4) 16 2, ctr, v) else none
  else none

/-- Some operand is in HOST space. -/
def usesHost (d : Desc) : Bool := (operandsOf d).any fun e => e.2.space == 5

/-- Whether an indirect REPEAT must wait for the producers of its count (R64). -/
def isIndirect (d : Desc) : Bool := dEng d = 8 ∧ dOpc d = 1 ∧ bitOf (dw d 4) 24

/-- The count of a REPEAT: COUNT, or bits [23:0] of the first word of field 1, read through an engine port (R47, R64, R229). -/
def repeatCount (s : State) (k : Nat) (d : Desc) (eff : List Nat) : Nat × State :=
  if isIndirect d then
    let (data, s1) := readBeat s k 8 (eff.getD 1 0) true
    (leNat (data.take 4) % 2 ^ 24, s1)
  else (dw d 4 % 2 ^ 24, s)

/-- The late items of a descriptor with their places in the order of R54 (HOST_WINDOW, STASH_LATE, LINK_LATE, WAIT, BUDGET, DEPENDENCY)
and their causes; `id` is the descriptor's number. Among items of the last place the queue, the scoreboard and the producers go before a
descriptor not yet fetched: R54 does not order them, and the choice decides whose TAG STR_SLIP_TAG records (log entry 135, DESIGN
CHOICE). -/
def lateItems (s : State) (k id : Nat) (d : Desc) (late : List Producer) (tokens : List LateItem) (nextMissing : Bool) :
    List (Nat × Nat × LateItem) :=
  let c := s.core k
  let e := dEng d
  let hostItem := if usesHost d then [(1, 5, LateItem.window k id)] else []
  let prods := late.map fun p => ((if p.cause = 2 then 2 else if p.cause = 1 then 3 else 6), p.cause, LateItem.producer k p.id)
  let wait := match waitLate s k d with
    | some (cause, ctr, v) => [(4, cause, LateItem.counter k ctr v)]
    | none => []
  let budget := tokens.map fun i => (5, 3, i)
  let full := if (e = 0 ∨ e = 5 ∨ e = 7) ∧ 16 ≤ queued (opDoneBefore s) c e then [(6, 0, LateItem.queueEntry k e)] else []
  let board := if namesSlot d ∧ 128 ≤ scoreboard (opDoneBefore s) c then [(6, 0, LateItem.scoreboard k)] else []
  let next := if nextMissing then [(7, 0, LateItem.fetch k)] else []
  hostItem ++ prods ++ wait ++ budget ++ full ++ board ++ next

/-- The stream after a descriptor has passed its check. -/
def passCheck (s : State) (k : Nat) (w : Fetched) (t : Nat) (eff : List Nat) (n : Nat) (needs : List LateItem) : State :=
  let c := s.core k
  let st := c.stream
  let tr := st.tr
  let d := w.desc
  let (i0, i1, n0) := indices tr
  let (ls, top, nx, o) := after tr d (s.reg64 (strBlk k) 0x60) w.addr t n
  let f := { tr.fetch with window := tr.fetch.window.drop 1 }
  let isRepeat := dEng d = 8 ∧ dOpc d = 1
  let f1 := if isIndirect d then fetchLatch f n else f
  let f2 := if dEng d = 8 ∧ dOpc d = 3 then { f1 with window := [], out := [], next := none } else f1
  let depth := if isRepeat ∧ n ≠ 0 then tr.loops.length + 1 else tr.loops.length
  let q : Checked := ⟨c.nextOp, tr.seg, d, w.addr, t, tr.timed, eff, i0, i1, n0, depth, needs⟩
  let c1 := if tr.timed then occupy c d t else c
  s.setCore k { c1 with
    nextOp := c.nextOp + 1
    stream := { st with
      checked := st.checked ++ [q]
      tr := { tr with pos := nx, loops := ls, top := top, overrun := o, prevTick := t
                      tickEngs := if tr.prevTick = t then tr.tickEngs ++ [dEng d] else [dEng d]
                      checkedCount := tr.checkedCount + 1, fetch := f2, requested := false } } }

/-- The address of step 6 of R52, when it is not populated. -/
def badNext (s : State) (k : Nat) (w : Fetched) (t n : Nat) : Option Nat :=
  let (_, _, nx, _) := after (s.core k).stream.tr w.desc (s.reg64 (strBlk k) 0x60) w.addr t n
  nx.filter fun a => !hbmAddrOk s a

/-- The next descriptor of the segment under check has not been fetched and decoded in an earlier tick. -/
def nextMissing (s : State) (k : Nat) : Bool :=
  let tr := (s.core k).stream.tr
  tr.pos.isSome && !headReady s tr.fetch

/-- Raise a descriptor's hold request with its late items and count a schedule slip (R54). -/
def requestHold (s : State) (k : Nat) (d : Desc) (items : List (Nat × Nat × LateItem)) : State :=
  match minOn? (·.1) items with
  | none => s
  | some first =>
    let s1 := holdFromStream s k first.2.1 (items.map (·.2.2))
    if first.2.1 = 0 then slip s1 k (if first.1 = 7 then none else some (dTag d)) else s1

/-- The PTC value at which the hold that a request joins now freezes the package. -/
def freezePtc (s : State) : Nat := s.ptc.toNat + (s.hold.elim 24 fun h => h.freezeAt - s.wall)

/-- The items that a descriptor of a timed segment waits for at its tick: none, since the hold covers them, unless its check came so late
that the package freezes at its tick or after it. R52 lets no descriptor issue without its late items (log entry 130). -/
def lateNeeds (s : State) (t : Nat) (items : List LateItem) : List LateItem := if freezePtc s < t then [] else items

/-- Give the descriptor that was checked last what it waits for. -/
def setNeeds (s : State) (k : Nat) (needs : List LateItem) : State :=
  s.modStream k fun st => { st with checked := st.checked.dropLast ++ (st.checked.getLast?.map fun q => { q with needs := needs }).toList }

/-- A break of the descriptor under check, unless it has been made already. -/
def breakOnce (s0 s : State) (k : Nat) (d : Desc) : State := if (s0.core k).stream.tr.requested then s else doBreak s0 s k d

/-- The segment under check notes that the descriptor at `pos` has raised its request or made its break. -/
def noteRequested (s : State) (k : Nat) : State := s.modStream k fun st => { st with tr := { st.tr with requested := true } }

/-- The access that the read of an indirect count meets at its bank in this tick (R226, R227). -/
def countBank (s : State) (k : Nat) (d : Desc) (eff : List Nat) : Option Due := if isIndirect d then countMeets s k (eff.getD 1 0) else none

/-- The conflict of the read of an indirect count in a timed segment (R226). -/
def countConflict (s : State) (k : Nat) (d : Desc) (eff : List Nat) : State := match countBank s k d eff with
  | some y => bankConflict s k y.eng y.acc.beat 8
  | none => s

/-- Steps 6 and 7 of R52 and the breaks in a timed segment, once steps 1 to 5 have passed. An indirect count whose producers are late is
read when they have arrived (LATE_ITEM_ARRIVE), and the request covers it (log entry 136). -/
def checkTimed (s : State) (k : Nat) (w : Fetched) (t : Nat) (eff : List Nat) (late : List Producer) : State :=
  let d := w.desc
  let id := (s.core k).nextOp
  if isIndirect d ∧ !late.isEmpty then
    breakOnce s (noteRequested (requestHold s k d (lateItems s k id d late [] false ++ [(8, 0, .latch k)])) k) k d
  else
    let (n, s0) := repeatCount s k d eff
    match badNext s0 k w t n with
    | some a => streamFault s0 k 4 15 0 0 a s.ptc.toNat
    | none =>
      let s1 := passCheck (countConflict s0 k d eff) k w t eff n []
      let (s2, tokens) := charge s1 k d t true
      let items := lateItems s k id d late tokens (nextMissing s1 k)
      let s3 := if usesHost d then { s2 with hostWaits := s2.hostWaits ++ [(s2.wall, k, id)] } else s2
      let s4 := breakOnce s (requestHold s3 k d items) k d
      let broke : List LateItem := if breakMatch s k d then [.debug] else []
      setNeeds s4 k (lateNeeds s4 t (items.map (·.2.2) ++ broke))

/-- The same in an untimed segment (R73): the descriptor waits for its producers, its counter and a break behind its check; what else it
needs is looked at when it could issue. An indirect count is latched once its producers are complete. -/
def checkUntimed (s : State) (k : Nat) (w : Fetched) (t : Nat) (eff : List Nat) (prods : List Producer) : State :=
  let d := w.desc
  let s0 := breakOnce s (noteRequested s k) k d
  if isIndirect d ∧ (!prods.isEmpty ∨ (countBank s k d eff).isSome) then s0
  else
    let (n, s1) := repeatCount s0 k d eff
    match badNext s1 k w t n with
    | some a => streamFault s1 k 4 15 0 0 a s.ptc.toNat
    | none =>
      let broke : List LateItem := if breakMatch s k d then [.debug] else []
      let s2 := passCheck s1 k w t eff n (prods.map (fun p => .producer k p.id) ++ broke)
      match waitLate s k d with
      | some (_, ctr, v) =>
        (setNeeds s2 k (.counter k ctr v :: prods.map (fun p => .producer k p.id) ++ broke)).modStream k fun st => { st with waiting := some (ctr, v) }
      | none => s2

/-- The counter of a checked WAIT of an untimed segment that has been woken is tested again (R270): its wait is over, or goes on. -/
def retest (s : State) (k : Nat) : State :=
  let st := (s.core k).stream
  let need (q : Checked) : Option (Nat × Int) := q.needs.findSome? fun i => match i with
    | .counter _ ctr v => if q.timed then none else some (ctr, v)
    | _ => none
  match st.waiting, st.checked.findSome? need with
  | none, some (ctr, v) =>
    if counterSeen s k ctr < v then s.modStream k fun st => { st with waiting := some (ctr, v) }
    else s.modStream k fun st => { st with checked := st.checked.map fun q => { q with needs := q.needs.erase (.counter k ctr v) } }
  | _, _ => s

/-- The producers of a descriptor over region slots and dependency tags (R57, R63, R64). -/
def producers (s : State) (c : Core) (d : Desc) (t : Nat) : List Producer :=
  slotProducers s c d (if isIndirect d then t - 33 else t) ++ tagProducers s c d t

/-- The check of the next descriptor of the segment on `tr`, at 32 pt before its issue tick or later (R52); none at or beyond the start
tick of a redirect, `redirect` (R70). A descriptor that is decoded later than its t − 32 is checked in the first running tick after its
decoding (log entry 130). FIELD is 0xF for SCHED_EARLY, SA_SET_MISMATCH and SA_ACC_MISMATCH: no rule names a field for them (log entry
137, DESIGN CHOICE). -/
def checkOne (redirect : Option Nat) (k : Nat) (s : State) : State :=
  let c := s.core k
  let tr := c.stream.tr
  match tr.fetch.window with
  | [] => s
  | w :: _ =>
    let d := w.desc
    let t := frameBase tr + dw d 1
    let now := s.ptc.toNat
    if c.stream.st != .running || !ptcRuns s || tr.pos != some w.addr || !headReady s tr.fetch || decide (now + 32 < t)
        || redirect.any (fun x => decide (x ≤ t)) || c.stream.waiting.isSome || (tr.timed && tr.requested) then s
    else
      let fault (e : Nat × Nat) : State := streamFault s k e.1 e.2 (dEng d) (dOpc d) w.addr now
      match faultStep1 s k d w.addr with
      | some e => fault e
      | none =>
        if !orderOk tr d t then fault (3, 15)
        else
          let (i0, i1, _) := indices tr
          match faultStep3 s k d i0 i1 with
          | some e => fault e
          | none =>
            if tagMiss c d then fault (6, 15)
            else
              let prods := producers s c d t
              if tr.timed && (prods.any Producer.early || !datapathFree c d t) then fault (7, 15)
              else
                match saMismatch c d with
                | some (code, sa) =>
                  panelFault (fault (code, 15)) (.sa (k / 288)) sa (k % 288) 0 (some (b2n (bitOf (dw d 12) 0) * 2 ^ 13))
                | none =>
                  let eff := resolvedAll s k d i0 i1
                  if tr.timed then checkTimed s k w t eff (prods.filter fun p => p.fixedAt.isNone)
                  else checkUntimed s k w t eff prods

/-- The check of a segment that a redirect replaces, up to its start tick S (R70). -/
def checkOld (k : Nat) (s : State) : State :=
  let st := (s.core k).stream
  match st.old with
  | none => s
  | some o =>
    let s1 := checkOne (some st.segStart) k (s.modStream k fun st => { st with tr := o, old := none })
    s1.modStream k fun x =>
      if x.st == .faulted then { x with tr := st.tr.stopped, old := none } else { x with tr := st.tr, old := some x.tr }

/-- The next descriptor of a fetch is due for its check, by its issue tick. -/
def oldDue (s : State) (st : Stream) : Bool :=
  st.old.any fun o => o.fetch.window.head?.any fun w =>
    o.pos == some w.addr && headReady s o.fetch && decide (frameBase o + dw w.desc 1 < st.segStart) && decide (frameBase o + dw w.desc 1 ≤ s.ptc.toNat + 32)
      && !(o.timed && o.requested)

/-- ISSUE_CHECK (R52, R59, R70, R73, R270): a woken WAIT tests its counter again; else the next descriptor is checked, one of a segment
that a redirect replaces before one of the segment that follows it. -/
def issueCheck (k : Nat) (s : State) : State :=
  let s1 := if ptcRuns s then retest s k else s
  let st := (s1.core k).stream
  if oldDue s1 st then checkOld k s1
  else checkOne (st.launch.bind fun l => if l.unchecked then none else some l.start) k s1

/-! ## Late items that arrive (R64, R94) -/

/-- The count of the REPEAT at `pos` is read and latched once its producers are complete: it passes its check (R64, log entry 136). -/
def latchCount (s : State) (k : Nat) : State :=
  let c := s.core k
  let tr := c.stream.tr
  match tr.fetch.window with
  | [] => s
  | w :: _ =>
    let d := w.desc
    let t := frameBase tr + dw d 1
    if !tr.requested || !tr.timed || !isIndirect d || (producers s c d t).any (fun p => !itemArrived s (.producer k p.id)) then s
    else
      let (i0, i1, _) := indices tr
      let eff := resolvedAll s k d i0 i1
      let (n, s0) := repeatCount s k d eff
      match badNext s0 k w t n with
      | some a => streamFault s0 k 4 15 0 0 a s.ptc.toNat
      | none => passCheck s0 k w t eff n []

/-- The same for the segment whose REPEAT waits, a replaced one first. -/
def latchAny (s : State) (k : Nat) : State :=
  let st := (s.core k).stream
  match st.old with
  | some o =>
    if o.requested then (latchCount (s.modStream k fun st => { st with tr := o, old := none }) k).modStream k fun x =>
      if x.st == .faulted then { x with tr := st.tr.stopped, old := none } else { x with tr := st.tr, old := some x.tr }
    else latchCount s k
  | none => latchCount s k

/-- LATE_ITEM_ARRIVE (R94): the n-th late item of the current hold is marked once its condition is true; a late count is read when its
producers have arrived. -/
def lateItemArrive (n : Nat) (s : State) : State :=
  match s.hold with
  | some h =>
    match (h.reqs.flatMap fun r => r.items.map (·.1))[n]? with
    | some it =>
      let s1 := match it with
        | .latch k => latchAny s k
        | _ => s
      if itemArrived s1 it then markItems s1 fun _ j => decide (j = it) else s1
    | none => s
  | none => s

/-! ## Issue (R53, R58, R62) -/

/-- A thing that a checked descriptor waits for is there; a counter of an untimed segment only when the stream has tested it again. -/
def met (s : State) (k : Nat) (timed : Bool) : LateItem → Bool
  | .counter k ctr v => timed && itemArrived s (.counter k ctr v)
  | .debug => !inBreak s k
  | i => itemArrived s i

/-- The descriptor that follows a checked one in its segment has been fetched and decoded in an earlier tick (step 6 of R52). -/
def nextDecoded (s : State) (c : Core) (q : Checked) : Bool :=
  let tr := if q.seg = c.stream.tr.seg then c.stream.tr else c.stream.old.getD c.stream.tr
  tr.pos.isNone || decide (1 < (c.stream.checked.filter fun x => x.seg == q.seg).length) || headReady s tr.fetch

/-- A descriptor of an untimed segment at the front finds its datapaths, its queue, the scoreboard and its next descriptor ready (R60,
R73). -/
def roomToIssue (s : State) (c : Core) (q : Checked) : Bool :=
  let e := dEng q.desc
  datapathFree c q.desc s.ptc.toNat && (!(e == 0 || e == 5 || e == 7) || decide (queuedIssued opDone c e < 16))
    && (!namesSlot q.desc || decide (boardIssued opDone c < 128)) && nextDecoded s c q

/-- The front descriptor can issue now: in a timed segment at its tick exactly (R53), or where an earlier one issued after its own
tick in that tick; in an untimed one at its tick or later, once it is ready (R73). -/
def mayIssue (s : State) (k : Nat) (q : Checked) : Bool :=
  let c := s.core k
  ptcRuns s && (if q.timed && q.needs.isEmpty then s.ptc.toNat == Nat.max q.tick c.stream.lastIssue
    else decide (q.tick ≤ s.ptc.toNat) && q.needs.all (met s k q.timed) && (q.timed || roomToIssue s c q))

/-- A fault of the in-service test on a core (R475, R484): FLT_IST_FAIL records the first. -/
def istFault (s : State) (k : Nat) (conflict : Bool) (slice : Nat) : State :=
  raiseErr (recordFirst s .flt 0x74 0 0 fun s =>
    s.setRegN .flt 0x74 (2 ^ 31 + b2n conflict * 2 ^ 30 + k / 288 * 2 ^ 27 + k % 288 * 2 ^ 18 + slice % 512)) .flt (if conflict then 3 else 2)

/-- A descriptor that issues inside a test window of its core is a conflict (R475). -/
def istCheck (s : State) (k : Nat) : State :=
  let inside (w : IstWin) : Bool := decide (w.start ≤ s.ptc.toNat) && decide (s.ptc.toNat < w.start + w.len)
  if s.regBit .flt 0x70 31 && (FMap.look [] s.flt.istOpen k).any inside then istFault s k true 0 else s

/-- The slices of a window (R474). -/
def IstWin.slices (w : IstWin) : Nat := (w.len - 64) / 4032

/-- What a window on core k does in the tick with the present PTC: the last tick of a slice moves the rotation of 512 on, and raises
IST_FAIL when its signature does not match (R474, R475). -/
def istSliceEnd (k : Nat) (s : State) (w : IstWin) : State :=
  let t := s.ptc.toNat - (w.start + 32)
  let n := t / 4032
  if s.ptc.toNat < w.start + 32 ∨ t % 4032 ≠ 4031 ∨ w.slices ≤ n then s
  else
    let i := (s.core k).istSlice
    let s1 := s.modCore k fun c => { c with istSlice := i + 1 }
    if w.bad = some n then istFault s1 k false i else s1

/-- The test windows of every core in a tick that PTC leaves: a window ends with its exit step. -/
def istTick (s : State) : State :=
  if !ptcRuns s || s.flt.istOpen.isEmpty then s
  else
    let s1 := if s.regBit .flt 0x70 31 then s.flt.istOpen.foldl (fun s e => e.2.foldl (istSliceEnd e.1) s) s else s
    let lasts (w : IstWin) : Bool := decide (s.ptc.toNat + 1 < w.start + w.len)
    { s1 with flt := { s1.flt with istOpen := s.flt.istOpen.foldl (fun m e => FMap.put [] m e.1 (e.2.filter lasts)) s.flt.istOpen } }

/-- Record the TAG of an issued descriptor and count it; in an untimed segment its datapaths are occupied from now on. -/
def noteIssue (s0 : State) (k : Nat) (q : Checked) : State :=
  let s := istCheck s0 k
  s.modCore k fun c =>
    let c1 := if q.timed then c else occupy c q.desc s.ptc.toNat
    { c1 with
      tags := if dTag q.desc = 0 then c.tags else FMap.put none c.tags (dTag q.desc % 256) (some (dTag q.desc, q.id))
      port := c1.port.filter fun x => decide (s.ptc.toNat < x.2.2)
      stream := { c.stream with checked := c.stream.checked.drop 1, issued := c.stream.issued + 1, depthAtIssue := q.depth, lastIssue := s.ptc.toNat } }

/-- Issue the front checked descriptor of core `k` when it is one of engine `eng` and operation `opcs` and its time has
come, with the effect `f` of the operation. -/
def issue (eng : Nat) (opcs : List Nat) (f : Nat → Checked → State → State) (k : Nat) (s : State) : State :=
  match (s.core k).stream.checked with
  | [] => s
  | q :: _ =>
    if dEng q.desc == eng && opcs.contains (dOpc q.desc) && mayIssue s k q then f k q (noteIssue s k q) else s

/-- The issued descriptor as an incomplete operation with the given work. -/
def mkOp (s : State) (k : Nat) (q : Checked) (work : Work) (cause : Nat) : Op :=
  { id := q.id, desc := q.desc, eff := q.eff, eng := dEng q.desc, tag := dTag q.desc, tick := s.ptc.toNat, timed := q.timed
    slots := slotUses q.desc, varLat := (opPlan q.desc).dur.isNone, cause := cause, work := work, input := dInput q.desc
    step := (s.core k).step.setWidth 32, index := (q.i0 + q.n0 * q.i1) % 2 ^ 32 }

/-- Add an incomplete operation to a core: what it does, it does tick by tick from this tick on (R500). -/
def addOp (s : State) (k : Nat) (o : Op) : State := s.modCore k fun c => { c with inflight := c.inflight ++ [o] }

/-- Start a fixed-latency operation, complete as many ticks after its issue as its plan says (R179). -/
def startFixed (k : Nat) (q : Checked) (s : State) : State := addOp s k (mkOp s k q (.fixed ((opPlan q.desc).dur.getD 0)) 0)

/-! ## Stream control (R46 to R48) -/

/-- NOP (R46): no effect beyond issuing. -/
def doNop (_ : Nat) (_ : Checked) (s : State) : State := s

/-- MARK (R48, R88): STEP + 1. -/
def doMark (k : Nat) (_ : Checked) (s : State) : State := s.modCore k fun c => { c with step := c.step + 1 }

/-- SIGNAL (R48, R264). -/
def doSignal (k : Nat) (q : Checked) (s : State) : State :=
  let w := dw q.desc 4
  counterOp s ⟨rowOrder 3 (virtOf s k) 0, k, w % 2 ^ 13, bits w 13 2, BitVec.ofNat 32 (dw q.desc 6), 1, localSrc s k⟩

/-- REGION (R47, R61): redefines one region slot. -/
def doRegion (k : Nat) (q : Checked) (s : State) : State :=
  let d := q.desc
  s.modCore k fun c => { c with regions := FMap.put {} c.regions (dw d 4 % 64) ⟨dw d 6, dw d 7, bits (dw d 4) 8 4⟩ }

/-- END (R68, R72): the stream leaves RUNNING unless its next segment has started. -/
def doEnd (k : Nat) (q : Checked) (s : State) : State :=
  s.modCore k fun c =>
    let st := c.stream
    let st1 := { st with ended := some (c.step, s.ptc) }
    if st.tr.seg = q.seg ∧ st.st = .running then { c with stream := { st1 with st := if st.launch.isSome then .armed else .idle } }
    else { c with stream := st1 }

/-- STR_GO. -/
def execStrGo (c : CoreId) (timed : Bool) (s : State) := actBy 0 s fun s => onCore s c (strGo timed)
/-- SEGMENT_START. -/
def execSegmentStart (c : CoreId) (s : State) := act s fun s => onCore s c segmentStart
/-- LATE_ITEM_ARRIVE. -/
def execLateItemArrive (n : Nat) (s : State) := act s (lateItemArrive n)
/-- ISSUE_CHECK. -/
def execIssueCheck (c : CoreId) (s : State) := act s fun s => onCore s c issueCheck
/-- NOP. -/
def execNop (c : CoreId) (s : State) := act s fun s => onCore s c (issue 8 [0] doNop)
/-- REPEAT: the count was latched and the loop opened at the issue check (R64). -/
def execRepeat (c : CoreId) (s : State) := act s fun s => onCore s c (issue 8 [1] doNop)
/-- CHAIN: the frame base and the next chart were taken at the issue check (R49, R71). -/
def execChain (c : CoreId) (s : State) := act s fun s => onCore s c (issue 8 [2] doNop)
/-- END. -/
def execEnd (c : CoreId) (s : State) := act s fun s => onCore s c (issue 8 [3] doEnd)
/-- WAIT: no further effect when it issues (R48). -/
def execWait (c : CoreId) (s : State) := act s fun s => onCore s c (issue 8 [4] doNop)
/-- SIGNAL. -/
def execSignal (c : CoreId) (s : State) := act s fun s => onCore s c (issue 8 [5] doSignal)
/-- MARK. -/
def execMark (c : CoreId) (s : State) := act s fun s => onCore s c (issue 8 [6] doMark)
/-- BREAK: the break was made at the issue check (R75). -/
def execBreak (c : CoreId) (s : State) := act s fun s => onCore s c (issue 8 [7] doNop)
/-- REGION. -/
def execRegion (c : CoreId) (s : State) := act s fun s => onCore s c (issue 8 [8] doRegion)

end Sys2Proof.Machine
end

