-- ==== Sys2Proof/Machine/Vector.lean ====
section
/-! DEFINITION. The vector engine (R188 to R195, R143, R144), and the conversions and draws that other engines share
(R136 to R142, R138, R216, R217). -/

namespace Sys2Proof.Machine

/-! ## Draws (R138, R217) -/

/-- Word j of PLAN_SEEDs. -/
def seedWord (s : State) (seed j : Nat) : Word := s.reg .plan (0x100 + 16 * seed + 4 * j)

/-- The draw of element i of an operation: its 32-bit lane of Twist-4 (R138, R210). -/
def draw (s : State) (o : Op) (i : Nat) : Nat :=
  let seed := bits (dw o.desc 12) 24 4
  let key := [0, 1, 2, 3].map (seedWord s seed)
  let c : List Word := [BitVec.ofNat 32 (dw o.desc 14), o.step, BitVec.ofNat 32 (i / 4), BitVec.ofNat 32 o.index]
  ((twist4 key c).getD (i % 4) 0).toNat

/-! ## Conversion (R136 to R142) -/

/-- The tick after the issue in which element i of output field f is written (R500). -/
def elementTick (rate : Nat) (d : Desc) (f : OpField) (i : Nat) : Nat :=
  let w := fmtBits f.fmt
  writeTick rate f.extent ((opPlan d).dur.getD 0) ((i * w + w - 1) / 512)

/-- Convert exact values to the elements of a format under an operation's rounding fields; the second of each pair says that it comes from
the T1 code 10. Element i is read in tick `rd i` after the issue and written in tick `wr i`. -/
def convertAll (s : State) (o : Op) (fmt : Nat) (rd wr : Nat → Nat) : Nat → List (XVal × Bool) → List Nat × List (Nat × Ev)
  | _, [] => ([], [])
  | i, (x, t1) :: xs =>
    let d := o.desc
    let mode := rModeOf d
    let e := encodeEl fmt (lsqOf d) mode (if mode = 2 then draw s o i else 0) (noSatOf d) x
    let (es, ev) := convertAll s o fmt rd wr (i + 1) xs
    (e.bits :: es, numEv (wr i) 2 (b2n e.special) ++ numEv (wr i) 1 (b2n e.sat) ++ numEv (rd i) 3 (b2n t1) ++ ev)

/-! ## FP32 and I32 element operations (R190, R192) -/

/-- The smaller (or larger) FP32 element: NaN if either is NaN (R190). -/
def fpPick (larger : Bool) (a b : Nat) : Nat :=
  let x := fpVal a
  let y := fpVal b
  if x = .nan ∨ y = .nan then nan32 else if (XVal.le x y) != larger then a else b

/-- The smaller (or larger) I32 element. -/
def intPick (larger : Bool) (a b : Nat) : Nat := if (decide (signed 32 a ≤ signed 32 b)) != larger then a else b

/-- Saturate to I32. -/
def sat32 (v : Int) : Nat := unsigned 32 (max (-2 ^ 31) (min (2 ^ 31 - 1) v))

/-- A two-operand vector operation on FP32 elements, with c the third operand of FMA. -/
def fpBinary (opc a b c : Nat) : Nat :=
  let mode := opc / 128
  match opc % 128 with
  | 1 => fpRound mode ((fpVal a).add (fpVal b))
  | 2 => fpRound mode ((fpVal a).add (fpVal b).minus)
  | 3 => fpRound mode ((fpVal a).mul (fpVal b))
  | 4 => fpRound mode (((fpVal a).mul (fpVal b)).add (fpVal c))
  | 5 => fpPick false a b
  | _ => fpPick true a b

/-- A two-operand vector operation on I32 elements. -/
def intBinary (opc a b : Nat) : Nat :=
  let x := signed 32 a
  let y := signed 32 b
  match opc with
  | 0x01 => unsigned 32 (x + y)
  | 0x02 => unsigned 32 (x - y)
  | 0x03 => unsigned 32 (x * y)
  | 0x05 => intPick false a b
  | 0x06 => intPick true a b
  | 0x08 => sat32 (x + y)
  | 0x09 => sat32 (x - y)
  | 0x0A => a &&& b
  | 0x0B => a ||| b
  | 0x0C => a ^^^ b
  | 0x0D => a * 2 ^ (b % 32) % 2 ^ 32
  | _ => unsigned 32 (x / 2 ^ (b % 32))

/-! ## Operations -/

/-- An elementwise operation (R188): B repeats when it is shorter. -/
def veBinary (o : Op) : Result :=
  let d := o.desc
  let a := o.els 0
  let b := o.els 1
  let c := if dOpc d % 128 = 4 then o.els 2 else []
  let fp := (fld d 0).fmt = 0xD
  { out := fieldBytes d 2 ((List.range (16 * (fld d 2).extent)).map fun i =>
      let x := a.getD i 0
      let y := b.getD (i % b.length) 0
      if fp then fpBinary (dOpc d) x y (c.getD i 0) else intBinary (dOpc d) x y) }

/-- A function of A (R190, R191). -/
def veFunction (o : Op) : Result :=
  { out := fieldBytes o.desc 1 ((o.els 0).map (fpFunc (dOpc o.desc) (rModeOf o.desc))) }

/-- CVT (R194). -/
def veConvert (s : State) (o : Op) : Result :=
  let d := o.desc
  let f0 := fld d 0
  let f1 := fld d 1
  let n := 512 * f1.extent / fmtBits f1.fmt
  let (es, ev) := convertAll s o f1.fmt (· / 64) (elementTick 4 d f1) 0 (((o.els 0).take n).map (decodeEl f0.fmt (lsqOf d)))
  { out := fieldBytes d 1 es, evs := ev }

/-- The groups of GROUP elements (R193). -/
def groups (g : Nat) : Nat → List Nat → List (List Nat)
  | 0, _ => []
  | n + 1, xs => xs.take g :: groups g n (xs.drop g)

/-- The exact sum of a group, rounded once (R193). -/
def groupSum (mode : Nat) : List Nat → Nat
  | [] => 0
  | x :: xs => fpRound mode (xs.foldl (fun acc v => acc.add (fpVal v)) (fpVal x))

/-- The maximum of a group (R193). -/
def groupMax (fp : Bool) : List Nat → Nat
  | [] => 0
  | x :: xs => xs.foldl (fun m v => if fp then fpPick true m v else intPick true m v) (if fp then canonical32 x else x)

/-- RSUM and RMAX (R193). -/
def veReduce (o : Op) : Result :=
  let d := o.desc
  let gs := groups (dw d 15) (16 * (fld d 1).extent) (o.els 0)
  { out := fieldBytes d 1 (gs.map (if dOpc d = 0x21 then groupSum (rModeOf d) else groupMax ((fld d 0).fmt = 0xD))) }

/-- The vector engine. -/
def veResult (s : State) (o : Op) : Result :=
  let c := dOpc o.desc
  if c = 0x20 then veConvert s o
  else if c = 0x21 ∨ c = 0x22 then veReduce o
  else if 0x10 ≤ c ∧ c ≤ 0x17 then veFunction o
  else veBinary o

/-- ADD. -/
def execAdd (c : CoreId) (s : State) := act s fun s => onCore s c (issue 2 [0x01, 0x81] startFixed)
/-- SUB. -/
def execSub (c : CoreId) (s : State) := act s fun s => onCore s c (issue 2 [0x02, 0x82] startFixed)
/-- MUL. -/
def execMul (c : CoreId) (s : State) := act s fun s => onCore s c (issue 2 [0x03, 0x83] startFixed)
/-- FMA. -/
def execFma (c : CoreId) (s : State) := act s fun s => onCore s c (issue 2 [0x04, 0x84] startFixed)
/-- MIN. -/
def execMin (c : CoreId) (s : State) := act s fun s => onCore s c (issue 2 [0x05] startFixed)
/-- MAX. -/
def execMax (c : CoreId) (s : State) := act s fun s => onCore s c (issue 2 [0x06] startFixed)
/-- ADDS. -/
def execAdds (c : CoreId) (s : State) := act s fun s => onCore s c (issue 2 [0x08] startFixed)
/-- SUBS. -/
def execSubs (c : CoreId) (s : State) := act s fun s => onCore s c (issue 2 [0x09] startFixed)
/-- AND. -/
def execAnd (c : CoreId) (s : State) := act s fun s => onCore s c (issue 2 [0x0A] startFixed)
/-- OR. -/
def execOr (c : CoreId) (s : State) := act s fun s => onCore s c (issue 2 [0x0B] startFixed)
/-- XOR. -/
def execXor (c : CoreId) (s : State) := act s fun s => onCore s c (issue 2 [0x0C] startFixed)
/-- SHL. -/
def execShl (c : CoreId) (s : State) := act s fun s => onCore s c (issue 2 [0x0D] startFixed)
/-- SRA. -/
def execSra (c : CoreId) (s : State) := act s fun s => onCore s c (issue 2 [0x0E] startFixed)
/-- RCP. -/
def execRcp (c : CoreId) (s : State) := act s fun s => onCore s c (issue 2 [0x10] startFixed)
/-- SQRT. -/
def execSqrt (c : CoreId) (s : State) := act s fun s => onCore s c (issue 2 [0x11] startFixed)
/-- RSQRT. -/
def execRsqrt (c : CoreId) (s : State) := act s fun s => onCore s c (issue 2 [0x12] startFixed)
/-- EXP2. -/
def execExp2 (c : CoreId) (s : State) := act s fun s => onCore s c (issue 2 [0x13] startFixed)
/-- LOG2. -/
def execLog2 (c : CoreId) (s : State) := act s fun s => onCore s c (issue 2 [0x14] startFixed)
/-- EXP. -/
def execExp (c : CoreId) (s : State) := act s fun s => onCore s c (issue 2 [0x15] startFixed)
/-- TANH. -/
def execTanh (c : CoreId) (s : State) := act s fun s => onCore s c (issue 2 [0x16] startFixed)
/-- SIGMOID. -/
def execSigmoid (c : CoreId) (s : State) := act s fun s => onCore s c (issue 2 [0x17] startFixed)
/-- CVT. -/
def execCvt (c : CoreId) (s : State) := act s fun s => onCore s c (issue 2 [0x20] startFixed)
/-- RSUM. -/
def execRsum (c : CoreId) (s : State) := act s fun s => onCore s c (issue 2 [0x21] startFixed)
/-- RMAX. -/
def execRmax (c : CoreId) (s : State) := act s fun s => onCore s c (issue 2 [0x22] startFixed)

end Sys2Proof.Machine
end

