-- ==== Sys2Proof/Machine/Gather.lean ====
section
/-! DEFINITION. The gather/scatter engine (R201 to R204), the local sum of the collective engine (R205) and the sampler
(R208 to R211). -/

namespace Sys2Proof.Machine

/-! ## Gather and scatter -/

/-- A list and its rows (R202): the rows as they have been read; an entry of −1 and a bad one leave zeros. Each bad list position is a fault when it is
read, at two beats per tick. -/
def gsRows (o : Op) (n t rows : Nat) : Result :=
  { out := o.bytes 1 rows
    evs := ((List.range n).zip (o.els 0)).flatMap fun (j, e) => if entryOf t e = .bad then [(j / 32, Ev.eng 1 j)] else [] }

/-- GATHER. -/
def gsGather (o : Op) : Result :=
  let d := o.desc
  let n := 16 * (fld d 0).extent
  gsRows o n ((fld d 1).extent / ((fld d 2).extent / n)) (fld d 2).extent

/-- SCATTER (R202): it writes in list order, so that for duplicate entries the later position remains. -/
def gsScatter (o : Op) : Result :=
  let d := o.desc
  let n := 16 * (fld d 0).extent
  gsRows o n ((fld d 2).extent / ((fld d 1).extent / n)) (fld d 1).extent

/-- MASK (R203). -/
def gsMask (o : Op) : Result :=
  let d := o.desc
  let l := dw d 12
  let len := max 0 (signed 32 ((o.els 0).getD 0 0))
  let a := o.els 1
  { out := fieldBytes d 1 ((List.range a.length).zip a |>.map fun (i, v) =>
      if ((dw d 15 + i % l : Nat) : Int) ≥ len + (i / l * dw d 14 : Nat) then 0xFF800000 else v) }

/-- The gather/scatter engine. -/
def gsResult (o : Op) : Result := match dOpc o.desc with
  | 1 => gsGather o
  | 2 => gsScatter o
  | _ => gsMask o

/-! ## Collective sums -/

/-- The LS128 sums of two operands, and which saturate (R132, R205). -/
def sumLs (a b : List Nat) : List (Nat × Bool) :=
  (a.zip b).map fun (x, y) => let r := clamp128 (signed 128 x + signed 128 y); (unsigned 128 r.1, r.2)

/-- The collective engine's sum (R205, R207, R500): beat i is written in tick i + 4 after the issue. -/
def clSum (o : Op) : Result :=
  let r := sumLs (o.els 0) (o.els 1)
  { out := elementBytes 128 (fld o.desc 0).extent (r.map (·.1))
    evs := ((List.range r.length).zip r).flatMap fun (i, e) => numEv (4 + i / 4) 1 (b2n e.2) }

/-! ## Sampler -/

/-- Whether element x comes before or with y in the value order: descending, −inf before NaN, ties by index (R209). -/
def beforeIn (x y : Nat × XVal) : Bool :=
  match x.2, y.2 with
  | .nan, .nan => x.1 ≤ y.1
  | .nan, _ => false
  | _, .nan => true
  | a, b => if XVal.leNum a b && XVal.leNum b a then x.1 ≤ y.1 else XVal.leNum b a

/-- Put an element into its place in an ordered list. -/
def insertIn (x : Nat × XVal) : List (Nat × XVal) → List (Nat × XVal)
  | [] => [x]
  | y :: ys => if beforeIn x y then x :: y :: ys else y :: insertIn x ys

/-- The value order of a row: element indices (R209). -/
def valueOrder (row : List Nat) : List Nat :=
  (((List.range row.length).zip (row.map fpVal)).foldr insertIn []).map (·.1)

/-- The numerator of a weight: an FP32 value that is not negative, scaled to an integer at 2^−149. -/
def weightNum (v : Nat) : Nat := match fpVal v with
  | .fin m e => (scale2 m (e + 149)).toNat
  | _ => 0

/-- The weight of a candidate against the row's maximum (R210), at scale 2^−149. -/
def candWeight (xm x : Nat) : Nat :=
  match fpVal x with
  | .nan => 0
  | .inf true => 0
  | _ =>
    if fpVal xm = .inf false then (if fpVal x = .inf false then 2 ^ 149 else 0)
    else weightNum (fpFunc 0x15 0 (fpRound 0 ((fpVal x).add (fpVal xm).minus)))

/-- Running sums. -/
def runningSums : Nat → List Nat → List Nat
  | _, [] => []
  | a, x :: xs => (a + x) :: runningSums (a + x) xs

/-- SAMPLE's choice for one row (R210): the element, and whether the row's sum is 0. -/
def sampleRow (row : List Nat) (kk p r : Nat) : Nat × Bool :=
  let arr := row.toArray
  let c := (valueOrder row).take (Nat.min kk row.length)
  let xm := arr.getD (c.getD 0 0) 0
  let cum := runningSums 0 (c.map fun j => candWeight xm (arr.getD j 0))
  let total := cum.getLastD 0
  let m := if p = 0 then cum.length else 1 + (cum.findIdx fun x => decide (p * total ≤ x * 65536))
  let sum := cum.getD (m - 1) 0
  if sum = 0 then (c.getD 0 0, true) else (c.getD (cum.findIdx fun x => decide (r * sum < x * 2 ^ 32)) 0, false)

/-- The rows of scores of a sampler descriptor. -/
def scoreRows (d : Desc) (els : List Nat) : List (List Nat) := groups (dw d 13) (spRows d) els

/-- The first kk indices of the value order of row r; beyond the row's length, which R208 does not exclude, a free value
(log entry 126). -/
def topIndices (r kk : Nat) (row : List Nat) : List Nat :=
  (List.range kk).map fun j => (valueOrder row).getD j (Config.topkBeyond r j).toNat

/-- ARGMAX, TOPK, SORT and SAMPLE (R208 to R210). -/
def spResult (s : State) (o : Op) : Result :=
  let d := o.desc
  let rows := scoreRows d (o.els 0)
  match dOpc d with
  | 1 => { out := fieldBytes d 1 (rows.map fun r => (valueOrder r).headD 0) }
  | 2 => { out := fieldBytes d 1 ((List.range rows.length).flatMap fun r => topIndices r (dw d 15) (rows.getD r [])) }
  | 3 => { out := fieldBytes d 1 (rows.flatMap valueOrder) }
  | _ =>
    let out := (List.range rows.length).map fun r => sampleRow (rows.getD r []) (dw d 15) (dw d 12 % 2 ^ 16) (draw s o r)
    { out := fieldBytes d 1 (out.map (·.1))
      evs := ((List.range out.length).zip out).flatMap fun (r, e) => numEv (elementTick 1 d (fld d 1) r) 2 (b2n e.2) }

/-- GATHER. -/
def execGather (c : CoreId) (s : State) := act s fun s => onCore s c (issue 4 [1] startFixed)
/-- SCATTER. -/
def execScatter (c : CoreId) (s : State) := act s fun s => onCore s c (issue 4 [2] startFixed)
/-- MASK. -/
def execMask (c : CoreId) (s : State) := act s fun s => onCore s c (issue 4 [3] startFixed)
/-- CL_ADD. -/
def execClAdd (c : CoreId) (s : State) := act s fun s => onCore s c (issue 5 [1] startFixed)
/-- ARGMAX. -/
def execArgmax (c : CoreId) (s : State) := act s fun s => onCore s c (issue 6 [1] startFixed)
/-- TOPK. -/
def execTopk (c : CoreId) (s : State) := act s fun s => onCore s c (issue 6 [2] startFixed)
/-- SORT. -/
def execSort (c : CoreId) (s : State) := act s fun s => onCore s c (issue 6 [3] startFixed)
/-- SAMPLE. -/
def execSample (c : CoreId) (s : State) := act s fun s => onCore s c (issue 6 [4] startFixed)

end Sys2Proof.Machine
end

