-- ==== Sys2Proof/Machine/Keccak.lean ====
section
/-! DEFINITION. SHA3-256 of FIPS 202, the hash that R109, R219, R220, R249 and the digests of loading name. -/

namespace Sys2Proof.Machine

/-- The round constants of Keccak-f[1600]. -/
def keccakRc : List DWord :=
  [0x0000000000000001, 0x0000000000008082, 0x800000000000808A, 0x8000000080008000, 0x000000000000808B, 0x0000000080000001,
   0x8000000080008081, 0x8000000000008009, 0x000000000000008A, 0x0000000000000088, 0x0000000080008009, 0x000000008000000A]
  ++ [0x000000008000808B, 0x800000000000008B, 0x8000000000008089, 0x8000000000008003, 0x8000000000008002, 0x8000000000000080,
   0x000000000000800A, 0x800000008000000A, 0x8000000080008081, 0x8000000000008080, 0x0000000080000001, 0x8000000080008008]

/-- The rotation of lane x + 5y. -/
def keccakRot : List Nat :=
  [0, 1, 62, 28, 27, 36, 44, 6, 55, 20, 3, 10, 43, 25, 39, 41, 45, 15, 21, 8, 18, 2, 61, 56, 14]

/-- One round on 25 lanes, lane x + 5y. -/
def keccakRound (a : Array DWord) (rc : DWord) : Array DWord :=
  let at_ (i : Nat) : DWord := a.getD i 0
  let c : Array DWord := ((List.range 5).map fun x => at_ x ^^^ at_ (x + 5) ^^^ at_ (x + 10) ^^^ at_ (x + 15) ^^^ at_ (x + 20)).toArray
  let d (x : Nat) : DWord := c.getD ((x + 4) % 5) 0 ^^^ (c.getD ((x + 1) % 5) 0).rotateLeft 1
  let rot : Array Nat := keccakRot.toArray
  let b : Array DWord := ((List.range 25).map fun i =>
    let x := i % 5
    let y := i / 5
    let j := (x + 3 * y) % 5 + 5 * x
    (at_ j ^^^ d (j % 5)).rotateLeft (rot.getD j 0)).toArray
  ((List.range 25).map fun i =>
    let x := i % 5
    let y5 := 5 * (i / 5)
    let v := b.getD i 0 ^^^ (~~~(b.getD (y5 + (x + 1) % 5) 0) &&& b.getD (y5 + (x + 2) % 5) 0)
    if i = 0 then v ^^^ rc else v).toArray

/-- Keccak-f[1600]. -/
def keccakF (a : Array DWord) : Array DWord := keccakRc.foldl keccakRound a

/-- Absorb the blocks of 136 bytes of a padded message. -/
def keccakAbsorb : Nat → Array DWord → List Byte → Array DWord
  | 0, a, _ => a
  | n + 1, a, m =>
    let blk := m.take 136
    let mixed : Array DWord := ((List.range 25).map fun i =>
      if i < 17 then a.getD i 0 ^^^ BitVec.ofNat 64 (leNat ((blk.drop (8 * i)).take 8)) else a.getD i 0).toArray
    keccakAbsorb n (keccakF mixed) (m.drop 136)

/-- SHA3-256. -/
def sha3 (m : List Byte) : List Byte :=
  let fill := 136 - m.length % 136
  let pad : List Byte := if fill = 1 then [0x86] else [0x06] ++ List.replicate (fill - 2) 0 ++ [0x80]
  let out := keccakAbsorb ((m.length + fill) / 136) (Array.replicate 25 0) (m ++ pad)
  (List.range 4).flatMap fun i => leBytes 8 (out.getD i 0).toNat

end Sys2Proof.Machine
end

