-- ==== Sys2Proof/Machine/Ply.lean ====
section
/-! DEFINITION. Ply links: states, frames, acknowledgement and replay, flow control, lots at the ports, and the control and
data packets that leave (R291 to R308, R316 to R320, R322). -/

namespace Sys2Proof.Machine

/-! ## A link's state -/

/-- The block of a link. -/
def plyBlk (l : Nat) : Blk := .ply l

/-- A link of a present panel (R16). -/
def linkPresent (s : State) (l : Nat) : Bool := decide (l / 4 < s.fuses.panels)

/-- A link. -/
def State.link (s : State) (l : Nat) : Link := FMap.look {} s.links l

/-- Replace a link. -/
def State.setLink (s : State) (l : Nat) (x : Link) : State := { s with links := FMap.put {} s.links l x }

/-- The state codes of R302. -/
def LinkSt.code : LinkSt → Nat
  | .disabled => 0 | .training => 1 | .ident => 2 | .gauging => 3 | .up => 4 | .retrain => 5 | .failed => 6

/-- Traffic can be queued for a link: not DISABLED and not FAILED (R306, R315). -/
def linkUsable (s : State) (l : Nat) : Bool := linkPresent s l && (s.link l).st != .disabled && (s.link l).st != .failed

/-- Change STATE: BLK_IRQ_CAUSE bit 0 (R322). -/
def enterLink (s : State) (l : Nat) (st : LinkSt) : State :=
  raiseIrq (s.setLink l { s.link l with st := st, since := s.time.toNat }) (plyBlk l) 0

/-- PLY_LINK_STATE.CAUSE. -/
def linkCause (s : State) (l cause : Nat) : State := s.setRegN (plyBlk l) 0x44 (setBits (s.regN (plyBlk l) 0x44) 8 4 cause)

/-- A class of a link: 0 = DATA, 1 = VL0, 2 = VL1. -/
def Link.cls (x : Link) (c : Nat) : LinkClass := if c = 0 then x.data else if c = 1 then x.vl0 else x.vl1

/-- Replace a class. -/
def Link.setCls (x : Link) (c : Nat) (v : LinkClass) : Link :=
  if c = 0 then { x with data := v } else if c = 1 then { x with vl0 := v } else { x with vl1 := v }

/-- Frames of a class's receive buffer (flow control) and of its replay buffer (R298). -/
def classDepth (c : Nat) : Nat := if c = 0 then 2048 else 128

/-- XOFF of a class as its free space now sets or clears it (R300). -/
def flowOf (s : State) (l c : Nat) (v : LinkClass) : LinkClass :=
  let f := s.regN (plyBlk l) 0x5C
  let free := classDepth c - v.used
  let h := if c = 0 then f % 4096 else bits f 24 7
  let up := if c = 0 then 64 else 8
  { v with xoff := if free ≤ h then true else if h + up ≤ free then false else v.xoff }

/-- Frames leave a receive buffer. -/
def freeRx (s : State) (l c n : Nat) : State :=
  let x := s.link l
  let v := x.cls c
  s.setLink l (x.setCls c (flowOf s l c { v with used := v.used - n }))

/-- The oldest frame in a class's receive buffer is taken. -/
def popRx (s : State) (l c : Nat) : State :=
  let x := s.link l
  s.setLink l (x.setCls c { x.cls c with rx := (x.cls c).rx.drop 1 })

/-! ## Frames as bytes (R293) -/

/-- One bit of the IEEE 802.3 CRC-32, in its reflected form. -/
def crcBit (c : Nat) : Nat := if c % 2 = 1 then (c / 2) ^^^ 0xEDB88320 else c / 2

/-- One byte of the CRC-32. -/
def crcByte (c : Nat) (b : Byte) : Nat := crcBit (crcBit (crcBit (crcBit (crcBit (crcBit (crcBit (crcBit (c ^^^ b.toNat))))))))

/-- The IEEE 802.3 CRC-32 of a byte list: initial value and final inversion all ones. -/
def crc32 (bs : List Byte) : Nat := bs.foldl crcByte 0xFFFFFFFF ^^^ 0xFFFFFFFF

/-- The 8-byte header of a frame. -/
def SentFrame.header (f : SentFrame) : Nat :=
  f.valid % 2 ^ 9 * 2 ^ 36 + f.xoff % 8 * 2 ^ 32 + b2n f.rpl * 2 ^ 31 + b2n f.nak * 2 ^ 30 + f.ackClass % 4 * 2 ^ 28 + f.ack % 4096 * 2 ^ 16
  + b2n f.eop * 2 ^ 15 + b2n f.sop * 2 ^ 14 + f.cls % 4 * 2 ^ 12 + f.seq % 4096

/-- What the CRC of a frame covers: header and payload. -/
def SentFrame.covered (f : SentFrame) : List Byte := leBytes 8 f.header ++ (f.payload ++ List.replicate 256 0).take 256

/-- The 268 bytes of a frame on the link. -/
def SentFrame.wire (f : SentFrame) : List Byte := f.covered ++ leBytes 4 (crc32 f.covered)

/-- The CRC of 268 received bytes passes. -/
def crcOk (bs : List Byte) : Bool := decide (bs.length = 268) && crc32 (bs.take 264) == leNat (bs.drop 264)

/-- The frame that received bytes are. -/
def readFrame (bs : List Byte) : SentFrame :=
  let h := leNat (bs.take 8)
  { cls := bits h 12 2, seq := h % 4096, rpl := bitOf h 31, sop := bitOf h 14, eop := bitOf h 15, valid := bits h 36 9
    ackClass := bits h 28 2, ack := bits h 16 12, nak := bitOf h 30, xoff := bits h 32 3, payload := (bs.drop 8).take 256 }

/-! ## Dye lots at the ports (R319) -/

/-- A port allows a lot. -/
def lotAllowed (s : State) (l lot : Nat) : Bool :=
  (List.range 4).any fun e => bitOf (s.regN (plyBlk l) (0x60 + 4 * e)) 31 && s.regN (plyBlk l) (0x60 + 4 * e) % 2 ^ 16 == lot

/-- A packet fails its lot check: dropped and recorded. -/
def lotDrop (s : State) (l lot : Nat) (egress : Bool) : State :=
  let b := plyBlk l
  raiseErr ((s.incReg b 0x7C).setRegN b 0x80 (b2n egress * 2 ^ 31 + lot % 2 ^ 16)) b 4

/-- The lot of the package's job context (R310). -/
def jobLot (s : State) : Option Nat :=
  let j := s.regN .fab 0x48
  let w := s.regN .fab (0x50 + 16 * (j % 4))
  if bitOf j 31 && bitOf w 31 then some (w % 2 ^ 16) else none

/-- The package's rank in its job context. -/
def jobRank (s : State) : Nat := s.regN .fab (0x54 + 16 * (s.regN .fab 0x48 % 4)) % 2 ^ 20

/-! ## Packets that leave -/

/-- Queue a control packet on a virtual lane of a link: flushed where the link is down (R306), dropped at a port that does not
allow its lot (R319). -/
def sendCtl (s : State) (l vl : Nat) (c : TxCtl) : State :=
  if !linkPresent s l then s
  else if !linkUsable s l then s.incReg (plyBlk l) 0x8C
  else if !lotAllowed s l c.lot then lotDrop s l c.lot true
  else
    let x := s.link l
    s.setLink l (if vl = 0 then { x with ctl0 := x.ctl0 ++ [c] } else { x with ctl1 := x.ctl1 ++ [c] })

/-- The 64 bytes of a control packet (R307). -/
def ctlBytes (typ routing lot dst src : Nat) (body : List Byte) : List Byte :=
  leBytes 1 typ ++ leBytes 1 routing ++ leBytes 2 lot ++ leBytes 4 dst ++ leBytes 4 src ++ leBytes 4 0 ++ (body ++ List.replicate 48 0).take 48

/-- Free what a data packet that goes no further holds. -/
def releaseData (s : State) (d : TxData) : State :=
  let s1 := match d.panelBuf with
    | some p => { s with niBufs := FMap.put 0 s.niBufs p (FMap.look 0 s.niBufs p - 1) }
    | none => s
  match d.from_ with
  | some l => freeRx s1 l 0 d.frames.length
  | none => s1

/-- Queue a data packet on a link, under the same checks. -/
def sendData (s : State) (l : Nat) (d : TxData) : State :=
  if !linkPresent s l then releaseData s d
  else if !linkUsable s l then (releaseData s d).incReg (plyBlk l) 0x8C
  else if !lotAllowed s l d.lot then lotDrop (releaseData s d) l d.lot true
  else s.setLink l { s.link l with dataQ := (s.link l).dataQ ++ [d] }

/-- The packet that comes in on link l goes no further: what its frames have been promised is given back. -/
def dropInto (s : State) (l : Nat) (dest : Option PktRoute) : State :=
  let x := s.link l
  let s1 := s.setLink l { x with into := dest }
  match x.into with
  | some (.core k left _ _ _ _) => s1.modCore k fun c => { c with extHeld := c.extHeld - 4 * left }
  | some (.out o) =>
    let y := s1.link o
    let cut (d : TxData) : TxData := if d.from_ = some l ∧ d.more then { d with more := false } else d
    s1.setLink o { y with dataQ := (y.dataQ.map cut).filter fun d => !d.frames.isEmpty || d.more }
  | _ => s1

/-- Packets that come in for core k are dropped: it takes no more. -/
def dropForCore (s : State) (k : Nat) : State :=
  s.links.foldl (fun s e => match (s.link e.1).into with
    | some (.core j _ _ _ _ _) => if j = k then dropInto s e.1 (some .drop) else s
    | _ => s) s

/-- Packets that come in for link o, whose queue is gone, are dropped. -/
def dropForLink (s : State) (o : Nat) : State :=
  s.links.foldl (fun s e => if (s.link e.1).into = some (.out o) then s.setLink e.1 { s.link e.1 with into := some .drop } else s) s

/-- What the receive buffer of link l holds for another link is lost. -/
def dropThrough (l : Nat) (s : State) (j : Nat) : State :=
  s.setLink j { s.link j with dataQ := (s.link j).dataQ.filter fun d => d.from_ != some l }

/-- What the receive buffer of link l holds for a core is lost. -/
def dropLanding (l : Nat) (s : State) (k : Nat) : State :=
  s.modCore k fun c => { c with ret := c.ret.filter fun b => b.link != some l }

/-- A link's queues and buffers are discarded (R302, R306): what its queued packets hold is freed, and what its receive buffer
holds is lost. -/
def emptyLink (s : State) (l : Nat) : State :=
  let s0 := dropForLink (dropInto s l none) l
  let x := s0.link l
  let s1 := x.dataQ.foldl releaseData (s0.setLink l { st := x.st, since := x.since, identOut := x.identOut })
  let s2 := (s1.links.map (·.1)).foldl (dropThrough l) s1
  (s2.cores.map (·.1)).foldl (dropLanding l) s2

/-- A link that leaves UP or RETRAIN for good is emptied; after a release that is PLY_LINK_LOST (R306). -/
def flushLink (s : State) (l : Nat) : State :=
  if s.castSt = .released then raiseErr (emptyLink s l) (plyBlk l) 0 else emptyLink s l

/-- A link enters FAILED with its cause and, where it has one, its BLK_ERR bit; `flush` from UP or RETRAIN. -/
def failLink (s : State) (l cause : Nat) (err : Option Nat) (flush : Bool) : State :=
  let s1 := linkCause (enterLink s l .failed) l cause
  let s2 := match err with
    | some n => raiseErr s1 (plyBlk l) n
    | none => s1
  if flush then flushLink s2 l else emptyLink s2 l

/-- Every unacknowledged frame of a class is to be resent (R298). -/
def LinkClass.replayAll (v : LinkClass) (time : Nat) : LinkClass := { v with replay := v.unacked, timer := time }

/-- A link reaches UP: slots count from 0, and what is unacknowledged is replayed (R295, R305). -/
def reachUp (s : State) (l : Nat) : State :=
  let x := s.link l
  let t := s.time.toNat
  enterLink (s.setLink l { x with slot := 0, badRun := 0, trained := false, matched := false, paced := []
                                  data := x.data.replayAll t, vl0 := x.vl0.replayAll t, vl1 := x.vl1.replayAll t }) l .up

/-- A link leaves UP for RETRAIN (R299, R302, R305): what waits in its queues will leave with RPL = 1 (R293). -/
def enterRetrain (s : State) (l cause : Nat) : State :=
  let x := s.link l
  let old (c : TxCtl) : TxCtl := { c with old := true }
  let s1 := s.setLink l { x with trained := false, matched := false, ctl0 := x.ctl0.map old, ctl1 := x.ctl1.map old
                                 dataQ := x.dataQ.map fun (d : TxData) => { d with old := true } }
  (linkCause (enterLink s1 l .retrain) l cause).incReg (plyBlk l) 0x88

/-! ## Training, identity, gauging (R302 to R305) -/

/-- PLY_EN_WRITE: a write of PLY_CTRL. -/
def plyEnWrite (l : Nat) (w : Word) (s : State) : State :=
  let s1 := s.writeReg (plyBlk l) 0x40 w
  let st := (s.link l).st
  if bitOf w.toNat 0 then
    if st = .disabled then enterLink (s1.setLink l {}) l .training else s1
  else if st = .disabled then s1
  else
    let s2 := if st = .up ∨ st = .retrain then flushLink s1 l else emptyLink s1 l
    enterLink s2 l .disabled

/-- The identity that this end of link l sends: FAB_SELF_ID with the package link number (R303). -/
def ownIdent (s : State) (l : Nat) : DWord := BitVec.ofNat 64 (s.fuses.selfId.toNat / 32 * 32 + l % 32)

/-- TRAINING_DONE: in IDENT, and after a retrain, this end sends its identity. -/
def trainingDone (l : Nat) (s : State) : State :=
  let x := { s.link l with identOut := ownIdent s l }
  match x.st with
  | .training => enterLink (s.setLink l x) l .ident
  | .retrain => s.setLink l { x with trained := true }
  | _ => s

/-- TRAINING_TIMEOUT: 250 ms; an end whose peer refused its identity fails training in the same way (R303). -/
def trainingTimeout (l : Nat) (s : State) : State :=
  let x := s.link l
  if (x.st = .training ∨ x.st = .ident) ∧ 250000000 ≤ s.time.toNat - x.since then failLink s l 1 (some 2) false else s

/-- IDENT_EXCHANGE (R303): `peer` is the identity received, `peerMatches` whether the peer accepts ours. An identity is never 0, so
the reset value of PLY_PEER_ID matches none. -/
def identExchange (l : Nat) (peer : DWord) (peerMatches : Bool) (s : State) : State :=
  let x := s.link l
  let again := x.st = .retrain ∧ x.trained ∧ !x.matched
  if x.st ≠ .ident ∧ ¬again then s
  else
    let s1 := s.setReg64 (plyBlk l) 0x50 peer.toNat
    if s.reg64 (plyBlk l) 0x48 ≠ peer.toNat ∨ peer = 0 then failLink s1 l 2 (some 1) again
    else if !peerMatches then s1
    else if again then s1.setLink l { x with matched := true }
    else enterLink s1 l .gauging

/-- Fifteenths of a nanosecond in a plan clock period of the setting in force (R8). -/
def planFifteenths (s : State) : Nat := match s.clk.set with
  | 0 => 10
  | 1 => 12
  | _ => 15

/-- N_rt of R300: a gauge in 1/16 pt, frames of 1.34 ns, 20 ns of reaction time. -/
def nRt (s : State) (gauge : Nat) : Nat := ceilDiv (200 * gauge * planFifteenths s + 480000) 32160

/-- GAUGING_DONE (R301, R304, R305): stored after GAUGING; only compared after a retrain. -/
def gaugingDone (l gauge : Nat) (s : State) : State :=
  let b := plyBlk l
  let x := s.link l
  match x.st with
  | .gauging =>
    let n := nRt s gauge
    let hd := n + 32
    let hc := ceilDiv n 20 + 2
    let s1 := (s.setRegN b 0x58 (gauge % 2 ^ 24)).setRegN b 0x5C (b2n (1984 < hd && hc ≤ 120) * 2 ^ 31 + hc % 128 * 2 ^ 24 + hd % 4096)
    if 120 < hc then failLink s1 l 3 (some 2) false
    else if bits (s.regN b 0x40) 16 7 * 100000 ≤ n * 134 + 50000 then failLink s1 l 4 (some 2) false
    else reachUp s1 l
  | .retrain =>
    if !x.matched then s
    else
      let old := s.regN b 0x58
      let s1 := if 32 < (gauge - old) + (old - gauge) then raiseErr s b 3 else s
      reachUp s1 l
  | _ => s

/-- LANE_LOCK_LOST (R299). -/
def laneLockLost (l : Nat) (s : State) : State := if (s.link l).st = .up then enterRetrain s l 5 else s

/-- PLY_RETRAIN: a write of PLY_CTRL.RETRAIN (R302). -/
def plyRetrain (l : Nat) (s : State) : State := if (s.link l).st = .up then enterRetrain s l 8 else s.countNoEffect (plyBlk l)

/-- PLY_REGAUGE: a write of PLY_CTRL.REGAUGE (R304, R322). -/
def plyRegauge (l : Nat) (s : State) : State := if (s.link l).st = .up then enterLink s l .gauging else s.countNoEffect (plyBlk l)

/-- GRACE_EXPIRE (R305, R306). -/
def graceExpire (l : Nat) (s : State) : State :=
  let x := s.link l
  if x.st = .retrain ∧ bits (s.regN (plyBlk l) 0x40) 24 8 * 1000000 ≤ s.time.toNat - x.since then failLink s l 7 none true else s

/-! ## Receiving frames (R296, R297, R299) -/

/-- An acknowledgement of a class: frames up to `ack` leave the replay buffer; a NAK replays the rest (R297, R298). -/
def takeAck (s : State) (l c ack : Nat) (nak : Bool) : State :=
  let x := s.link l
  let v := x.cls c
  let keep := match v.unacked.findIdx? fun f => f.seq == ack with
    | some i => v.unacked.drop (i + 1)
    | none => v.unacked
  let moved := keep.length != v.unacked.length
  let v1 : LinkClass := { v with unacked := keep, replay := v.replay.filter fun f => keep.any fun g => g.seq == f.seq
                                 timer := if moved then s.time.toNat else v.timer }
  if nak then (s.setLink l (x.setCls c (v1.replayAll s.time.toNat))).incReg (plyBlk l) 0x74 else s.setLink l (x.setCls c v1)

/-- Admission of a frame (R296) of class c: into the class's receive buffer when it is the next. -/
def admitFrame (s : State) (l c : Nat) (f : SentFrame) : State :=
  let b := plyBlk l
  let x := s.link l
  let v := x.cls c
  let behind := (v.expected + 4096 - f.seq % 4096) % 4096
  if behind = 0 then
    if v.used < classDepth c then
      let got : RxFrame := ⟨f.sop, f.eop, f.rpl, f.payload.take f.valid⟩
      s.setLink l (x.setCls c (flowOf s l c
        { v with expected := (v.expected + 1) % 4096, used := v.used + 1, rx := v.rx ++ [got], ackDue := true, seen := true, nakGap := false }))
    else raiseErr s b 5
  else if behind ≤ 2048 then (s.setLink l (x.setCls c { v with again := true })).incReg b 0x78
  else if v.nakGap then s
  else s.setLink l (x.setCls c { v with nakDue := true, nakGap := true })

/-- The four beats of a granule that lands wait in the core's return buffer; the last one is written 16 pt after its frame has come, 64 pt
into another panel, frees its frame, and carries the signal of a packet's last granule (R228, R315, R317). -/
def landGranule (s : State) (l k dbeat : Nat) (bytes : List Byte) (sig : Option Sig) (src : Word) : State :=
  let lat := if l / 4 = k / 288 then 16 else 64
  let beats := (List.range 4).map fun j : Nat =>
    ({ addr := 64 * (dbeat + j), bytes := (bytes.drop (64 * j)).take 64, ready := s.wall + lat - 3 + j, planned := false
       order := s.wall, op := none, beat := j, sig := if j = 3 then sig.map (fun g => (g, 3, src)) else none, link := some l } : RetBeat)
  s.modCore k fun c => { c with ret := c.ret ++ beats, extHeld := c.extHeld - 4 }

/-- The granules that are whole in the bytes of a landing packet land. -/
def landBytes (s : State) (l k : Nat) : Nat → Nat → List Byte → Option Sig → Word → State
  | 0, _, _, _, _ => s.setLink l { s.link l with into := some .drop }
  | left + 1, dbeat, part, sig, src =>
    if part.length < 256 then s.setLink l { s.link l with into := some (.core k (left + 1) dbeat part sig src) }
    else landBytes (landGranule s l k dbeat (part.take 256) (if left = 0 then sig else none) src) l k left (dbeat + 4) (part.drop 256) sig src

/-- A frame of the packet that comes in goes where the packet goes. A frame that begins another packet ends this one. -/
def routeFrame (s : State) (l : Nat) (f : RxFrame) : State :=
  match (s.link l).into with
  | none => s
  | some dest =>
    if f.sop then dropInto s l none
    else
      let s1 := popRx s l 0
      let s2 := match dest with
        | .drop => freeRx s1 l 0 1
        | .out o =>
          let add (d : TxData) : TxData := if d.from_ = some l ∧ d.more then
            { d with frames := d.frames ++ [⟨0, false, f.eop, f.bytes.length, f.bytes⟩], more := !f.eop } else d
          s1.setLink o { s1.link o with dataQ := (s1.link o).dataQ.map add }
        | .core k left dbeat part sig src => landBytes s1 l k left dbeat (part ++ f.bytes) sig src
      if f.eop then (match (s2.link l).into with
        | some (.core _ _ _ _ _ _) => dropInto s2 l none
        | _ => s2.setLink l { s2.link l with into := none })
      else s2

/-- The data frames in a receive buffer go where their packet goes, for at most `fuel` of them. -/
def routeFrames (l : Nat) : Nat → State → State
  | 0, s => s
  | fuel + 1, s =>
    match (s.link l).into, (s.link l).data.rx with
    | some _, f :: _ => routeFrames l fuel (routeFrame s l f)
    | _, _ => s

/-- FRAME_RECEIVE: the bytes of a frame, and the uncorrectable FEC codewords met since the frame before (R322). -/
def frameReceive (l : Nat) (bytes : List Byte) (fec : Nat) (s0 : State) : State :=
  let b := plyBlk l
  let s := if fec = 0 then s0 else s0.incReg b 0x84 fec
  let x := s.link l
  let f := readFrame bytes
  if x.st ≠ .up then s
  else if !crcOk bytes then
    let s1 := (s.setLink l { x with badRun := x.badRun + 1 }).incReg b 0x70
    if 32 ≤ x.badRun + 1 then enterRetrain s1 l 6 else s1
  else
    let s1 := (s.setLink l { x with badRun := 0 }).setRegN b 0x44 (setBits (s.regN b 0x44) 4 3 f.xoff)
    let s2 := if 1 ≤ f.ackClass ∧ f.ackClass ≤ 3 then takeAck s1 l (f.ackClass - 1) f.ack f.nak else s1
    if 1 ≤ f.cls ∧ f.cls ≤ 3 then routeFrames l 2 (admitFrame s2 l (f.cls - 1) f) else s2

/-- ACK_TIMER_EXPIRE (R298): class 0 = DATA, 1 = VL0, 2 = VL1. -/
def ackTimerExpire (l c : Nat) (s : State) : State :=
  let x := s.link l
  let v := x.cls (c % 3)
  if x.st = .up ∧ !v.unacked.isEmpty ∧ bits (s.regN (plyBlk l) 0x40) 16 7 * 1000 ≤ s.time.toNat - v.timer then
    (s.setLink l (x.setCls (c % 3) (v.replayAll s.time.toNat))).incReg (plyBlk l) 0x74
  else s

/-! ## Sending frames (R293 to R298, R301, R308, R318) -/

/-- The peer's latest XOFF bit of a class. -/
def peerXoff (s : State) (l c : Nat) : Bool := bitOf (s.regN (plyBlk l) 0x44) (4 + c)

/-- What a slot carries before the header's acknowledgement and flow bits: class (1 DATA, 2 VL0, 3 VL1), the frame, RPL. -/
abbrev Outgoing := Nat × TxFrame × Bool

/-- A new frame of a class: it takes the next sequence number and stays in the replay buffer. -/
def newFrame (s : State) (x : Link) (c : Nat) (f : TxFrame) : Link × TxFrame :=
  let v := x.cls c
  let f1 : TxFrame := { f with seq := v.nextSeq }
  (x.setCls c { v with nextSeq := (v.nextSeq + 1) % 4096, unacked := v.unacked ++ [f1], timer := if v.unacked.isEmpty then s.time.toNat else v.timer }, f1)

/-- The release in a frame that departs now: its wait is taken from the remaining time, and a release that falls below 0 leaves
with 0 and RPL = 1 (R308). -/
def departing (s : State) (c : TxCtl) : List Byte × Bool :=
  match c.release with
  | none => (c.bytes, c.old)
  | some r =>
    let wait := 16 * (s.wall - c.due)
    (c.bytes.take 20 ++ leBytes 4 (r - wait) ++ c.bytes.drop 24, c.old || decide (r < wait))

/-- A frame of control virtual lane v (0 or 1) that can leave now: a replay, else a new one (R295, R298). -/
def ctlFrame (s : State) (l : Nat) (x : Link) (v : Nat) : Option (Link × Outgoing) :=
  let c := v + 1
  let k := x.cls c
  if peerXoff s l c then none
  else match k.replay with
    | f :: fs => some (x.setCls c { k with replay := fs }, c + 1, f, true)
    | [] =>
      if 128 ≤ k.unacked.length then none
      else
        let q := if v = 0 then x.ctl0 else x.ctl1
        match q.find? fun p => decide (p.due ≤ s.wall) with
        | none => none
        | some p =>
          let (bytes, rpl) := departing s p
          let x1 := if v = 0 then { x with ctl0 := x.ctl0.erase p } else { x with ctl1 := x.ctl1.erase p }
          let (x2, f) := newFrame s x1 c ⟨0, false, false, 64, bytes⟩
          some (x2, c + 1, f, rpl)

/-- The data packet that the link serves next: the one it has started, else the ready one of the lowest port index (R317, R318). -/
def nextData (s : State) (x : Link) : Option TxData :=
  match x.dataQ.find? (·.started) with
  | some d => some d
  | none => minOn? (·.port) (x.dataQ.filter fun d => decide (d.due ≤ s.wall))

/-- A paced link has sent its 1,952 data frames of the present N_rt slots (R301). -/
def paceFull (s : State) (l : Nat) (x : Link) : Bool :=
  let f := s.regN (plyBlk l) 0x5C
  bitOf f 31 && decide (1952 ≤ (x.paced.filter fun n => decide (x.slot < n + (f % 4096 - 32))).length)

/-- Two packets are ready for one output in one slot (R318): counted, and the first after a release recorded. -/
def linkCollision (s : State) (l winner loser : Nat) : State :=
  let s1 := s.incReg .fab 0xB0
  if s1.regBit .fab 0xB4 31 then s1
  else (s1.setRegN .fab 0xB4 (2 ^ 31 + l % 32 * 2 ^ 24 + winner % 4096 * 2 ^ 12 + loser % 4096)).setReg64 .fab 0xB8 s.ptc.toNat

/-- A data frame that can leave now: a replay, else the next frame of the packet served. -/
def dataFrame (s : State) (l : Nat) : Option (State × Outgoing) :=
  let x := s.link l
  if peerXoff s l 0 || paceFull s l x then none
  else match x.data.replay with
    | f :: fs => some (s.setLink l { x with data := { x.data with replay := fs }, paced := x.slot :: x.paced.take 1951 }, 1, f, true)
    | [] =>
      if 2048 ≤ x.data.unacked.length then none
      else match nextData s x with
        | none => none
        | some d => match d.frames with
          | [] => none
          | f :: fs =>
            let waiting := x.dataQ.filter fun e => !decide (e = d) && decide (e.due ≤ s.wall)
            let s1 := if d.started then s else match minOn? (·.port) waiting with
              | some e => linkCollision s l d.port e.port
              | none => s
            let whole := fs.isEmpty && !d.more
            let q := if whole then x.dataQ.erase d else x.dataQ.map fun e => if e = d then { d with started := true, frames := fs } else e
            let (x1, f1) := newFrame s1 { x with dataQ := q, paced := x.slot :: x.paced.take 1951 } 0 f
            let s2 := s1.setLink l x1
            let s3 := match d.from_ with
              | some i => freeRx s2 i 0 1
              | none => s2
            let s4 := if whole then match d.panelBuf with
                | some p => { s3 with niBufs := FMap.put 0 s3.niBufs p (FMap.look 0 s3.niBufs p - 1) }
                | none => s3
              else s3
            some (s4, 1, f1, d.old)

/-- The classes in rotation from the one after the latest acknowledged (R297). -/
def rotation (x : Link) : List Nat := [x.rot % 3, (x.rot + 1) % 3, (x.rot + 2) % 3]

/-- The class whose acknowledgement the frame carries: one with a NAK due first, then one to be acknowledged again, then those with a change
in rotation (R296, R297); with no change one that has accepted a frame, in the same rotation (log entry 145). -/
def ackClass (x : Link) : Option Nat :=
  [0, 1, 2].find? (fun c => (x.cls c).nakDue) <|> [0, 1, 2].find? (fun c => (x.cls c).again)
    <|> (rotation x).find? (fun c => (x.cls c).ackDue) <|> (rotation x).find? (fun c => (x.cls c).seen)

/-- The header's acknowledgement and flow bits, and the frame of this slot. -/
def finishFrame (s : State) (l : Nat) (o : Option Outgoing) : State :=
  let x := s.link l
  let xoff := b2n x.data.xoff + 2 * b2n x.vl0.xoff + 4 * b2n x.vl1.xoff
  let (cls, f, rpl) := o.getD (0, ⟨0, false, false, 0, []⟩, false)
  let base : SentFrame := { cls := cls, seq := f.seq, rpl := rpl, sop := f.sop, eop := f.eop, valid := f.valid, ackClass := 0, ack := 0
                            nak := false, xoff := xoff, payload := f.payload }
  match ackClass x with
  | none => s.setLink l { x with sent := some base, slot := x.slot + 1 }
  | some c =>
    let v := x.cls c
    let x1 := x.setCls c { v with ackDue := false, again := false, nakDue := false }
    s.setLink l { x1 with
      sent := some { base with ackClass := c + 1, ack := (v.expected + 4095) % 4096, nak := v.nakDue }
      rot := c + 1, slot := x.slot + 1 }

/-- FRAME_SLOT (R295): a control slot carries a control frame when one is ready and allowed; any slot else a data frame or an
idle one. -/
def frameSlot (l : Nat) (s : State) : State :=
  let x := s.link l
  if x.st ≠ .up then s
  else
    let ctl := if x.slot % 20 ≠ 19 then none else match ctlFrame s l x 0 with
      | some r => some r
      | none => ctlFrame s l x 1
    match ctl with
    | some (x1, o) => finishFrame (s.setLink l x1) l (some o)
    | none => match dataFrame s l with
      | some (s1, o) => finishFrame s1 l (some o)
      | none => finishFrame s l none

/-! ## Lot entries (R320) -/

/-- A bind-off of a lot runs. -/
def binding (s : State) (lot : Nat) : Bool := match s.bind with
  | some b => b.lot == lot
  | none => false

/-- PLY_LOT_WRITE. -/
def plyLotWrite (l e : Nat) (w : Word) (s : State) : State :=
  let b := plyBlk l
  let off := 0x60 + 4 * (e % 4)
  let old := s.regN b off
  let lot := w.toNat % 2 ^ 16
  let valid := bitOf w.toNat 31
  if lot = 0 ∨ (valid ∧ bitOf old 31) then s.countNoEffect b
  else if valid then s.setRegN b off (2 ^ 31 + lot)
  else if bitOf old 31 && binding s (old % 2 ^ 16) then s.setRegN b off (setBits old 30 1 1)
  else s.setRegN b off lot

/-- PLY_EN_WRITE. -/
def execPlyEnWrite (l : Nat) (w : Word) (s : State) := actBy 0 s fun s => onBlock s (.ply l) (plyEnWrite l w)
/-- TRAINING_DONE. -/
def execTrainingDone (l : Nat) (s : State) := act s fun s => onBlock s (.ply l) (trainingDone l)
/-- TRAINING_TIMEOUT. -/
def execTrainingTimeout (l : Nat) (s : State) := act s fun s => onBlock s (.ply l) (trainingTimeout l)
/-- IDENT_EXCHANGE. -/
def execIdentExchange (l : Nat) (peer : DWord) (peerMatches : Bool) (s : State) := act s fun s => onBlock s (.ply l) (identExchange l peer peerMatches)
/-- GAUGING_DONE. -/
def execGaugingDone (l gauge : Nat) (s : State) := act s fun s => onBlock s (.ply l) (gaugingDone l gauge)
/-- LANE_LOCK_LOST. -/
def execLaneLockLost (l : Nat) (s : State) := act s fun s => onBlock s (.ply l) (laneLockLost l)
/-- FRAME_RECEIVE. -/
def execFrameReceive (l : Nat) (bytes : List Byte) (fec : Nat) (s : State) := act s fun s => onBlock s (.ply l) (frameReceive l bytes fec)
/-- FRAME_SLOT. -/
def execFrameSlot (l : Nat) (s : State) := act s fun s => onBlock s (.ply l) (frameSlot l)
/-- ACK_TIMER_EXPIRE. -/
def execAckTimerExpire (l cls : Nat) (s : State) := act s fun s => onBlock s (.ply l) (ackTimerExpire l cls)
/-- GRACE_EXPIRE. -/
def execGraceExpire (l : Nat) (s : State) := act s fun s => onBlock s (.ply l) (graceExpire l)
/-- PLY_RETRAIN. -/
def execPlyRetrain (l : Nat) (s : State) := actBy 0 s fun s => onBlock s (.ply l) (plyRetrain l)
/-- PLY_REGAUGE. -/
def execPlyRegauge (l : Nat) (s : State) := actBy 0 s fun s => onBlock s (.ply l) (plyRegauge l)
/-- PLY_LOT_WRITE. -/
def execPlyLotWrite (l e : Nat) (w : Word) (s : State) := actBy 0 s fun s => onBlock s (.ply l) (plyLotWrite l e w)

end Sys2Proof.Machine
end

