-- ==== Sys2Proof/Machine/Transfer.lean ====
section
/-! DEFINITION. The transfer engine (R182 to R187), ADD_SEND (R206, R207), fabric landings and collisions (R26, R102, R103), the
landing port and the return buffer (R225, R228), host transfers (R368 to R371) and the input digest (R219). -/

namespace Sys2Proof.Machine

/-! ## Fabric beats between cores (R26, R102) -/

/-- The port index that a beat from core `k` has at an output of panel `p` (R102): the issuing core's virtual core number, or that of
the inbound die-to-die port. -/
def fabricPort (s : State) (k p : Nat) : Nat := if k / 288 = p then virtOf s k else inboundPort (k / 288) p

/-- Whether the course pair of a core is ON (R36, R406). -/
def coreOn (s : State) (k : Nat) : Bool := domOn s (k / 288) (k % 288 / 36)

/-- One beat leaves core `k` for the core that carries `vcore`, and lands 48 pt, or between panels 96 pt, later (R26). Between panels that
are next to each other it goes through their interface (R27); the way between others is not in the manual (log entry 45). -/
def sendBeat (s : State) (k vcore beat : Nat) (data : List Byte) (sig : Option Sig) : State :=
  match physOf s vcore with
  | none => s
  | some j =>
    if !coreOn s j then domainOff s k (j / 288) (j % 288 / 36)
    else
      let l : Landing := { ptc := s.ptc.toNat + (if j / 288 = k / 288 then 48 else 96), port := fabricPort s k (j / 288), addr := 64 * beat
                           bytes := data, sig := sig, src := localSrc s k }
      match (if j / 288 = k / 288 then none else d2dBetween (k / 288) (j / 288)) with
      | some m => { s with crossings := s.crossings ++ [⟨2 * m + b2n (decide (j / 288 < k / 288)), virtOf s k, j, l⟩] }
      | none => s.modCore j fun c => { c with landings := c.landings ++ [l] }

/-! ## Return buffer (R228) -/

/-- Room in one part of the return buffer: 384 beats planned, 128 external, less what is promised to packets that come in. -/
def bufferRoom (c : Core) (planned : Bool) : Nat :=
  (if planned then 384 else 128 - c.extHeld) - (c.ret.filter fun b => b.planned == planned).length

/-- The zero beats of empty page list entries enter the planned part four at a time, when they are due and there is room (R185). -/
def enterZeros (wall : Nat) : Nat → Core → Core
  | 0, c => c
  | fuel + 1, c =>
    let due := (c.zeroQ.filter fun b => decide (b.ready ≤ wall)).take 4
    if due.isEmpty || decide (bufferRoom c true < due.length) then c
    else enterZeros wall fuel { c with ret := c.ret ++ due, zeroQ := c.zeroQ.filter fun b => !due.contains b }

/-- Data of a host read, and zero data in place of a stash page, enters the external part while there is room (R228). -/
def enterHost (wall : Nat) (c : Core) : Core :=
  let due := (c.hostQ.filter fun b => decide (b.ready ≤ wall)).take (bufferRoom c false)
  if due.isEmpty then c else { c with ret := c.ret ++ due, hostQ := c.hostQ.filter fun b => !due.contains b }

/-- Replace an issued descriptor. -/
def modOp (c : Core) (id : Nat) (f : Op → Op) : Core := { c with inflight := c.inflight.map fun o => if o.id = id then f o else o }

/-- One beat of a transfer has been written: the beats left, and the bytes for the input digest. -/
def Op.landed (o : Op) (beat : Nat) (bytes : List Byte) : Op :=
  { o with
    work := match o.work with
      | .landing n => .landing (n - 1)
      | w => w
    digestData := if o.input then Mem.store o.digestData (64 * beat) bytes else o.digestData }

/-- The first FEED whose beats have not all entered the FIFO (R186: FEEDs append in issue order). -/
def nextFeed (c : Core) : Option Op := c.inflight.find? fun o => dEng o.desc == 0 && dOpc o.desc == 4 && decide (o.feedNext < (fld o.desc 0).extent)

/-- Returned FEED beats enter the FIFO in order while it has room (R186). -/
def drainFeeds (wall : Nat) : Nat → Core → Core
  | 0, c => c
  | fuel + 1, c =>
    match nextFeed c with
    | none => c
    | some o =>
      match c.ret.find? fun b => b.fifo && b.op == some o.id && b.beat == o.feedNext && decide (b.ready ≤ wall) with
      | none => c
      | some b =>
        if 2048 ≤ c.fifo.length then c
        else
          let c1 := modOp c o.id fun o => { o.landed b.beat b.bytes with feedNext := o.feedNext + 1 }
          drainFeeds wall fuel { c1 with
            fifo := c1.fifo ++ [⟨b.bytes, o.fromStash, wall⟩]
            ret := c1.ret.filter fun x => !(x.fifo && x.op == some o.id && x.beat == b.beat) }

/-- What moves in a core's buffers by itself. -/
def Core.flow (wall : Nat) (c : Core) : Core :=
  let c0 := if c.zeroQ.isEmpty then c else enterZeros wall c.zeroQ.length c
  let c1 := if c0.hostQ.isEmpty then c0 else enterHost wall c0
  if c1.ret.any (·.fifo) then drainFeeds wall c1.ret.length c1 else c1

/-- The order of R228 among waiting beats. -/
def RetBeat.key (b : RetBeat) : Nat := ((b2n (!b.planned) * 2 ^ 96 + b.ready) * 2 ^ 64 + b.order) * 2 ^ 32 + b.beat

/-! ## Slot collisions (R103, R111) -/

/-- A tick with a collision, counted once, and the first after a release recorded. A tick is one when a beat that arrives in it is delayed,
be it behind buffered beats only; one in which only buffered beats go on waiting is not (log entry 139, DESIGN CHOICE). -/
def collision (s : State) (winner loser : Nat) : State :=
  let seen := FMap.look 0 s.faultAt (Blk.plan.base + 0x68) == s.wall + 1
  let s1 := if seen then s
    else { s.incReg .plan 0x68 with faultAt := FMap.put 0 s.faultAt (Blk.plan.base + 0x68) (s.wall + 1) }
  if s1.regBit .plan 0x6C 31 then s1
  else (s1.setRegN .plan 0x6C (2 ^ 31 + winner * 2 ^ 16 + loser)).setReg64 .plan 0x70 s1.ptc.toNat

/-- Put a beat in its place by port index. Those of one inbound die-to-die port in one tick stay as they came: R103 does not order them
(log entry 139, DESIGN CHOICE). -/
def insertPort {α : Type} (port : α → Nat) (x : α) : List α → List α
  | [] => [x]
  | y :: ys => if port x ≤ port y then x :: y :: ys else y :: insertPort port x ys

/-- Beats in ascending port index. -/
def byPort {α : Type} (port : α → Nat) (l : List α) : List α := l.foldr (insertPort port) []

/-- Count lost beats: each raises SLOT_OVERFLOW (R103). -/
def slotOverflow (s : State) : Nat → State
  | 0 => s
  | n + 1 => slotOverflow (raiseErr s .plan 0) n

/-- Write a landed beat, and send the signal that it carries to its counter (R184, R267). -/
def writeLanded (s : State) (k addr : Nat) (bytes : List Byte) (sig : Option (Sig × Nat × Word)) : State :=
  let s1 := landWrite s k addr bytes
  match sig with
  | some (g, kind, src) => counterOp s1 ⟨rowOrder 1 (virtOf s k) 0, k, g.ctr, g.op, g.value, kind, src⟩
  | none => s1

/-- The fixed landings of one tick at a core's output: the collision buffer passes first, then the lowest port; the rest wait,
32 at most (R103). A beat that finds the buffer full is lost. -/
def landFixed (s : State) (k : Nat) (due : List Landing) : State :=
  let c := s.core k
  let rest := c.landings.filter fun l => !due.contains l
  let order := c.collBuf ++ byPort Landing.port due
  match order with
  | [] => s
  | w :: late =>
    let fresh := if c.collBuf.isEmpty then late else due
    let s1 := s.setCore k { c with landings := rest, collBuf := late.take 32, landedAt := s.wall + 1 }
    let s2 := match minOn? (·.port) fresh with
      | some l => collision s1 w.port l.port
      | none => s1
    let s3 := slotOverflow s2 (late.length - 32)
    writeLanded s3 k w.addr w.bytes (w.sig.map fun g => (g, 3, w.src))

/-- Beats that a die-to-die interface carries in one plan tick: 3.072 TB/s in each direction (R17, R27). -/
def ifaceBeats (s : State) : Nat := 48 * periodFifteenths s / 15

/-- One direction of an interface passes what has come to it: the beats of its collision buffer first, then the others in ascending port
index, as many as it carries in a tick (R27, R103). -/
def crossOne (s : State) (i : Nat) : State :=
  let buf := FMap.look [] s.d2dBuf i
  let new := byPort Crossing.port (s.crossings.filter fun x => x.iface == i)
  let order := buf ++ new
  if order.isEmpty then s
  else
    let n := ifaceBeats s
    let pass := order.take n
    let late := order.drop n
    let fresh := late.drop (buf.length - n)
    let s1 := pass.foldl (fun s x => s.modCore x.core fun c =>
      { c with landings := c.landings ++ [{ x.landing with ptc := s.ptc.toNat + 96 }] }) { s with d2dBuf := FMap.put [] s.d2dBuf i (late.take 32) }
    let s2 := match minOn? Crossing.port pass, minOn? Crossing.port fresh with
      | some w, some l => collision s1 w.port l.port
      | _, _ => s1
    slotOverflow s2 (late.length - 32)

/-- The die-to-die interfaces in a plan tick. -/
def crossTick (s : State) : State := { (List.range 20).foldl crossOne s with crossings := [] }

/-- LANDING_PORT_WRITE (R228): at most one beat per tick. -/
def landingPortWrite (k : Nat) (s0 : State) : State :=
  let s := s0.modCore k (Core.flow s0.wall)
  let c := s.core k
  if c.landedAt = s.wall + 1 then s
  else
    let arrived := c.landings.filter fun l => decide (l.ptc ≤ s.ptc.toNat)
    let first := (minOn? (·.ptc) arrived).elim 0 (·.ptc)
    let due := arrived.filter fun l => l.ptc == first
    if ptcRuns s && (!due.isEmpty || !c.collBuf.isEmpty) then landFixed s k due
    else match minOn? RetBeat.key (c.ret.filter fun b => !b.fifo && decide (b.ready ≤ s.wall)) with
      | none => s
      | some b =>
        let c1 : Core := { c with ret := c.ret.erase b, landedAt := s.wall + 1 }
        let c2 := match b.op with
          | some id => modOp c1 id fun o => o.landed b.beat b.bytes
          | none => c1
        let s1 := s.setCore k c2
        writeLanded (match b.link with
          | some l => if b.beat = 3 then freeRx s1 l 0 1 else s1
          | none => s1) k b.addr b.bytes b.sig

/-! ## Requests (R235, R243) -/

/-- A transfer extent cut at granule boundaries: address and beats of each part, at most `fuel` parts. -/
def granuleParts : Nat → Nat → Nat → List (Nat × Nat)
  | 0, _, _ => []
  | fuel + 1, a, n =>
    if n = 0 then []
    else
      let m := Nat.min n ((256 - a % 256) / 64)
      (a, m) :: granuleParts fuel (a + 64 * m) (n - m)

/-- Zero data for a read whose domain is not ON (R406): beats ready at once, where the data itself would have gone. -/
def zeroBeats (s : State) (k id : Nat) (planned fifo : Bool) (dst beat n : Nat) : State :=
  let beats := (List.range n).map fun i : Nat =>
    ({ addr := dst + 64 * i, bytes := zeroBeat, ready := s.wall, planned := planned, order := id, op := some id
       beat := beat + i, fifo := fifo } : RetBeat)
  s.modCore k fun c => if planned then { c with zeroQ := c.zeroQ ++ beats } else { c with hostQ := c.hostQ ++ beats }

/-- HBM read requests for n beats from device address a, one per tick, the first `g` ticks from now; beat numbers and skein addresses
count from `beat` and `dst` (R235). -/
def hbmReads (s : State) (k id : Nat) (kind : GranuleKind) (a n dst beat g : Nat) : State :=
  let (p, _, _, _) := hbmPlace s a
  if !domOn s p 9 then zeroBeats (domainOff s k p 9) k id true (kind == .feed) dst beat n
  else
    let parts := granuleParts n a n
    ((List.range parts.length).zip parts).foldl (fun s e =>
      let off := (e.2.1 - a) / 64
      sendGranule s { kind := kind, core := k, op := id, order := id, dev := e.2.1, beat := beat + off, beats := e.2.2
                      dst := dst + 64 * off, arrival := s.wall + g + e.1 + hbmTravel s k a, port := hbmPort s k a }) s

/-- The part of one granule that holds beat j of an extent of n beats from address a: its first beat and its beats. -/
def partOf (a n j : Nat) : Nat × Nat :=
  let off := (a / 64 + j) % 4
  let first := j - Nat.min j off
  (first, Nat.min n (j + 4 - off) - first)

/-- A granule's write request leaves with its last beat (R235). -/
def hbmWrite (s : State) (k id a beat : Nat) (data : List Byte) : State :=
  let (p, _, _, _) := hbmPlace s a
  if !domOn s p 9 then domainOff s k p 9
  else sendGranule s { kind := .write data, core := k, op := id, order := id, dev := a, beat := beat, beats := data.length / 64, dst := 0
                       arrival := s.wall + hbmTravel s k a, port := hbmPort s k a }

/-- Stash page requests for n beats from a stash address. -/
def stashReads (s : State) (k : Nat) (q : Checked) (a n dst : Nat) (feed : Bool) : State :=
  let p := stashPanel a
  if !domOn s p 10 then zeroBeats (domainOff s k p 10) k q.id false feed dst 0 n
  else
    let x := s.stash p
    let remote := p != k / 288
    let reqs := (List.range (n / 64)).map fun i : Nat =>
      ({ id := x.nextReq + i, core := k, op := q.id, order := q.id, page := a + 4096 * i, beat := 64 * i, dst := dst + 4096 * i
         feed := feed, arrival := s.wall + (if remote then 64 else 16), remote := remote } : StashReq)
    s.setStash p { x with reqs := x.reqs ++ reqs, nextReq := x.nextReq + n / 64 }

/-! ## Host transfers (R368 to R371) -/

/-- The function of a flat host address. -/
def hostFn (a : Nat) : Nat := a / 2 ^ 64

/-- The HOST_XFER_INFO.KIND of a failure (R381). -/
def hostKind : HostFailKind → Nat
  | .timeout => 1 | .unsupported => 2 | .abort => 3 | .poisoned => 4 | .resetOrBme => 5

/-- The host buffer index that a descriptor's HOST operand names (R42). -/
def hostIndex (d : Desc) : Nat := ((operandsOf d).find? fun e => e.2.space == 5).elim 0 fun e => e.2.base / 2 ^ 40

/-- HOST_XFER_FAIL (R370): the error, and the record of the first since the host cleared it. -/
def hostFailed (s : State) (k : Nat) (d : Desc) (kind : HostFailKind) : State :=
  let s1 := if s.regBit .host 0x54 31 then s
    else s.setRegN .host 0x54 (2 ^ 31 + k / 288 * 2 ^ 28 + k % 288 * 2 ^ 19 + hostKind kind * 2 ^ 16 + hostIndex d % 256)
  raiseErr s1 .host 0

/-- The requests for beats [first, first + count) of a host transfer fail (R369): read beats that have not landed become zero,
write beats are dropped. -/
def hostFailBeats (c : Core) (o : Op) (first count : Nat) : Core :=
  let hit (i : Nat) : Bool := decide (first ≤ i) && decide (i < first + count)
  let zero (b : RetBeat) : RetBeat := if b.op = some o.id ∧ hit b.beat then { b with bytes := zeroBeat } else b
  modOp { c with ret := c.ret.map zero, hostQ := c.hostQ.map zero } o.id fun o => { o with work := match o.work with
    | .hostOut beats => .hostOut (beats.filter fun e => !hit e.1)
    | w => w }

/-- Whether some request of beats [first, first + count) of a host transfer is still outstanding. -/
def hostOutstanding (c : Core) (o : Op) (first count : Nat) : Bool :=
  let hit (i : Nat) : Bool := decide (first ≤ i) && decide (i < first + count)
  usesHost o.desc && o.done.isNone &&
    ((c.ret ++ c.hostQ).any (fun b => b.op == some o.id && hit b.beat) || match o.work with
      | .hostOut beats => beats.any fun e => hit e.1
      | _ => false)

/-- HOST_REQUEST_FAIL (R369, R370). -/
def hostRequestFail (op first count : Nat) (kind : HostFailKind) (k : Nat) (s : State) : State :=
  let c := s.core k
  match c.inflight.find? fun o => o.id == op with
  | none => s
  | some o => if hostOutstanding c o first count then hostFailed (s.setCore k (hostFailBeats c o first count)) k o.desc kind else s

/-- Bus Master Enable of a function is 0: its requests fail at the time they are made (R369). -/
def failIfNoBme (s : State) (k : Nat) (q : Checked) (fn n : Nat) : State :=
  if (FMap.look {} s.fns fn).bme then s else hostRequestFail q.id 0 n .resetOrBme k s

/-- A timed HOST transfer uses the window that was granted to it. -/
def takeWindow (s : State) (k : Nat) (q : Checked) : State :=
  { s with hostGrants := s.hostGrants.filter fun g => !(g.1 == k && g.2.1 == q.id) }

/-- Incomplete HOST transfers issued in timed segments (R371). -/
def openWindows (s : State) : Nat := (s.cores.map fun e => (e.2.inflight.filter fun o => o.hostWin && !opDone o).length).sum

/-- The function of the host buffer that a checked descriptor names. -/
def checkedFn (q : Checked) : Nat := ((operandsOf q.desc).find? fun e => e.2.space == 5).elim 0 fun e => hostFn (q.eff.getD e.1 0)

/-- A waiting descriptor's function is in D3hot: it gets no window (R371). -/
def waitsOnD3 (s : State) (k id : Nat) : Bool :=
  ((s.core k).stream.checked.find? fun q => q.id == id).any fun q => (FMap.look {} s.fns (checkedFn q)).d3hot

/-- The order of R371 among waiting descriptors: by request, then by virtual core number, then in stream order. -/
def waitKey (s : State) (e : Nat × Nat × Nat) : Nat := (e.1 * 4096 + virtOf s e.2.1) * 2 ^ 64 + e.2.2

/-- HOST_WINDOW_GRANT (R371): one window for one descriptor. -/
def hostWindowGrant (s : State) : State :=
  let ctrl := s.regN .host 0x4C
  if !bitOf ctrl 31 || decide (ctrl % 256 ≤ openWindows s) then s
  else match minOn? (waitKey s) (s.hostWaits.filter fun e => !waitsOnD3 s e.2.1 e.2.2) with
    | none => s
    | some e => { s with hostWaits := s.hostWaits.erase e, hostGrants := s.hostGrants ++ [(e.2.1, e.2.2, s.wall)] }

/-! ## Transfer engine operations -/

/-- The signal parameters of a COPY (R184). -/
def copySig (d : Desc) : Option Sig := sigOf (dw d 12 / 2 ^ 31) (bits (dw d 12) 29 2) (dw d 14 % 2 ^ 13) (dw d 15)

/-- Start a variable-latency transfer (R183, R186). -/
def xferOp (s : State) (k : Nat) (q : Checked) (work : Work) (sig : Option Sig) : State :=
  let o := mkOp s k q work (lateCause (s.core k) q.id q.desc)
  addOp (takeWindow s k q) k { o with sig := sig, hostWin := q.timed && usesHost q.desc, fromStash := (fld q.desc 0).space == 2 }

/-- COPY (R183, R184): where the beats leave the skein, the engine moves them tick by tick. -/
def xfCopy (k : Nat) (q : Checked) (s : State) : State :=
  let d := q.desc
  let f0 := fld d 0
  let f1 := fld d 1
  let e0 := q.eff.getD 0 0
  let e1 := q.eff.getD 1 0
  let n := f0.extent
  let sig := copySig d
  match f0.space, f1.space with
  | 0, 0 => addOp s k { mkOp s k q (.fixed (n + 8)) 0 with sig := sig }
  | 0, 3 => startFixed k q s
  | 0, 4 => xferOp s k q (.rank none false) none
  | 0, 1 => xferOp s k q (.sending (some n)) sig
  | 0, _ => xferOp s k q (.hostOut []) sig
  | 1, _ => hbmReads (xferOp s k q (.landing n) sig) k q.id .read e0 n e1 0 0
  | 2, _ => stashReads (xferOp s k q (.landing n) sig) k q e0 n e1 false
  | _, _ =>
    let beats := (List.range n).map fun i : Nat =>
      ({ addr := e1 + 64 * i, bytes := Mem.bytes s.hostMem (e0 + 64 * i) 64, ready := s.wall + 1, planned := false, order := q.id
         op := some q.id, beat := i } : RetBeat)
    failIfNoBme ((xferOp s k q (.landing n) sig).modCore k fun c => { c with hostQ := c.hostQ ++ beats }) k q (hostFn e0) n

/-- PAGED_RD (R185). -/
def xfPagedRd (k : Nat) (q : Checked) (s : State) : State := xferOp s k q (.landing (fld q.desc 2).extent) none

/-- PAGED_WR (R185). -/
def xfPagedWr (k : Nat) (q : Checked) (s : State) : State := xferOp s k q (.sending none) none

/-- FEED (R186). -/
def xfFeed (k : Nat) (q : Checked) (s : State) : State :=
  let f := fld q.desc 0
  let s1 := xferOp s k q (.landing f.extent) none
  if f.space = 1 then hbmReads s1 k q.id .feed (q.eff.getD 0 0) f.extent 0 0 0 else stashReads s1 k q (q.eff.getD 0 0) f.extent 0 true

/-- ADD_SEND (R205 to R207): P = A + P, written locally and sent. -/
def clAddSend (k : Nat) (q : Checked) (s : State) : State :=
  if (sendField q.desc).space = 3 then startFixed k q s else xferOp s k q (.rank none false) none

/-! ## Beats that leave (R183, R185, R206, R235) -/

/-- The beats [first, first + n) of field i of an operation, as far as it has read them. -/
def Op.part (o : Op) (i first n : Nat) : List Byte := (List.range n).flatMap fun j => FMap.look zeroBeat o.seen (slotOf i (first + j))

/-- Every one of these beats has been read. -/
def Op.partSeen (o : Op) (i first n : Nat) : Bool := (List.range n).all fun j => o.seen.any fun e => e.1 == slotOf i (first + j)

/-- The beats of field i that have just been read, from `lo` on, of an extent of n beats at HBM address a: each granule whose last beat is
among them is sent. -/
def sendParts (k : Nat) (o : Op) (i lo a n : Nat) (js : List Nat) (s : State) : State :=
  (js.map (partOf a n)).eraseDups.foldl (fun s e =>
    if o.partSeen i (lo + e.1) e.2 then hbmWrite s k o.id (a + 64 * e.1) (lo + e.1) (o.part i (lo + e.1) e.2) else s) s

/-- A beat of a write to host memory leaves: its request fails when Bus Master Enable of its function is 0 (R369, R370). Each beat is a
request (log entry 47). -/
def hostBeat (k : Nat) (o : Op) (fn : Nat) (acc : State × FMap (List Byte)) (j : Nat) : State × FMap (List Byte) :=
  if (FMap.look {} acc.1.fns fn).bme then (acc.1, FMap.put [] acc.2 j (o.part 0 j 1)) else (hostFailed acc.1 k o.desc .resetOrBme, acc.2)

/-- The beats of a COPY that have just been read leave the core. -/
def copyOut (k : Nat) (o : Op) (js : List Nat) (s : State) : State × Op :=
  let d := o.desc
  let f1 := fld d 1
  let e1 := o.eff.getD 1 0
  let n := (fld d 0).extent
  let o1 := { o with feedNext := o.feedNext + js.length }
  match f1.space with
  | 0 => (s, o)
  | 3 => (js.foldl (fun s j => sendBeat s k (bits f1.base 17 11) (e1 + j) (o.part 0 j 1) (if j + 1 = n then copySig d else none)) s, o)
  | 1 => (sendParts k o 0 0 e1 n js s, o1)
  | 5 => match o.work with
    | .hostOut beats =>
      let (s1, b) := js.foldl (hostBeat k o (hostFn e1)) (s, beats)
      (s1, { o1 with work := .hostOut b })
    | _ => (s, o)
  | _ => (s, o)

/-- The faults of list entries that have just been read (R185, R221): XF_PAGE_RANGE for each bad one of the first c. -/
def pageFaults (k : Nat) (o : Op) (js : List Nat) (s : State) : State :=
  let (c, t) := pageCounts o.desc
  js.foldl (fun s j => if j < c ∧ o.entry (fun _ => zeroBeat) t j = .bad then engFault s k 2 0 j else s) s

/-- Granule requests, or ticks of zero beats, of entry j of a PAGED_RD. -/
def pageTicks (o : Op) (j : Nat) : Nat :=
  match o.entry (fun _ => zeroBeat) (pageCounts o.desc).2 j with
  | .row e => (granuleParts 1024 (o.eff.getD 1 0 + 65536 * e) 1024).length
  | _ => 256

/-- Entry j of a PAGED_RD's list has been read `x` ticks after the issue: its page is requested, or its zero beats come, in the ticks that
follow those of the entries before it (R185). -/
def pageIn (k : Nat) (o : Op) (x : Nat) (s : State) (j : Nat) : State :=
  let (c, t) := pageCounts o.desc
  let g := ((List.range j).map (pageTicks o)).sum - x
  let dst := o.eff.getD 2 0 + 65536 * j
  if c ≤ j then s
  else match o.entry (fun _ => zeroBeat) t j with
    | .row e => hbmReads s k o.id .read (o.eff.getD 1 0 + 65536 * e) 1024 dst (1024 * j) g
    | _ => s.modCore k fun co => { co with zeroQ := co.zeroQ ++ (List.range 1024).map fun i : Nat =>
      ({ addr := dst + 64 * i, bytes := zeroBeat, ready := s.wall + g + i / 4, planned := true, order := o.id, op := some o.id
         beat := 1024 * j + i } : RetBeat) }

/-- The list entries in list beats. -/
def entriesIn (bs : List Nat) : List Nat := bs.flatMap fun b => (List.range 16).map (16 * b + ·)

/-- A PAGED_WR's data beat b, which has just been read, leaves: the granule that it ends is sent to the page that the list names. -/
def pageOut (k : Nat) (o : Op) (s : State) (b : Nat) : State :=
  let j := b / 1024
  match o.entry (fun _ => zeroBeat) (pageCounts o.desc).2 j with
  | .row e => sendParts k o 1 (1024 * j) (o.eff.getD 2 0 + 65536 * e) 1024 [b % 1024] s
  | _ => s

/-- The beats of a PAGED operation that have just been read, in its tick x. -/
def pagedOut (k : Nat) (o : Op) (x : Nat) (slots : List Nat) (s : State) : State × Op :=
  let lists := slots.filter (decide <| · < 2 ^ 24)
  let data := (slots.filter (decide <| 2 ^ 24 ≤ ·)).map (· - 2 ^ 24)
  let s1 := pageFaults k o (entriesIn lists) s
  if dOpc o.desc = 2 then ((entriesIn lists).foldl (pageIn k o x) s1, o)
  else
    let s2 := data.foldl (pageOut k o) s1
    let n := (fld o.desc 0).extent
    let all := o.partSeen 0 0 n
    (s2, { o with
      feedNext := o.feedNext + data.length
      work := if all then .sending (some (1024 * (o.pagesOut (fun _ => zeroBeat) n).length)) else o.work })

/-- The partial sums of an ADD_SEND to CORE space that have just been written enter the fabric in the same tick (R207). -/
def addSendOut (k : Nat) (o : Op) (r : Result) (js : List Nat) (s : State) : State :=
  let d := o.desc
  let t := sendField d
  let sig := sigOf (dw d 12 / 2 ^ 31) (bits (dw d 12) 29 2) (dw d 13 % 2 ^ 13) (dw d 15)
  if dOpc d ≠ 2 ∨ t.space ≠ 3 then s
  else js.foldl (fun s j => sendBeat s k (bits t.base 17 11) (o.eff.getD 2 0 + j) (r.beat j) (if j + 1 = (fld d 0).extent then sig else none)) s

/-! ## The input digest (R219) -/

/-- Every beat of the transfer has been written. -/
def allLanded (o : Op) : Bool := match o.work with
  | .landing n => n == 0
  | _ => false

/-- Bytes that an INPUT transfer writes. -/
def inputBytes (d : Desc) : Nat := 64 * (if dOpc d = 1 then (fld d 1).extent else if dOpc d = 2 then (fld d 2).extent else (fld d 0).extent)

/-- INPUT_DIGEST_UPDATE: the chain takes the oldest INPUT transfer whose data is complete, in issue order. -/
def inputDigestUpdate (k : Nat) (s : State) : State :=
  let c := s.core k
  match c.inflight.find? fun o => o.input && !o.digestDone with
  | none => s
  | some o =>
    if !allLanded o then s
    else
      let n := inputBytes o.desc
      let d := sha3 (Mem.bytes o.digestData 0 n)
      let h := sha3 (c.digestH ++ leBytes 8 c.digestN ++ leBytes 8 n ++ d)
      s.setCore k { modOp c o.id (fun o => { o with digestDone := true, digestData := [] }) with digestH := h, digestN := c.digestN + 1 }

/-- COPY. -/
def execCopy (c : CoreId) (s : State) := act s fun s => onCore s c (issue 0 [1] xfCopy)
/-- PAGED_RD. -/
def execPagedRd (c : CoreId) (s : State) := act s fun s => onCore s c (issue 0 [2] xfPagedRd)
/-- PAGED_WR. -/
def execPagedWr (c : CoreId) (s : State) := act s fun s => onCore s c (issue 0 [3] xfPagedWr)
/-- FEED. -/
def execFeed (c : CoreId) (s : State) := act s fun s => onCore s c (issue 0 [4] xfFeed)
/-- ADD_SEND. -/
def execAddSend (c : CoreId) (s : State) := act s fun s => onCore s c (issue 5 [2] clAddSend)
/-- INPUT_DIGEST_UPDATE. -/
def execInputDigestUpdate (c : CoreId) (s : State) := act s fun s => onCore s c inputDigestUpdate
/-- HOST_WINDOW_GRANT. -/
def execHostWindowGrant (s : State) := act s hostWindowGrant
/-- HOST_REQUEST_FAIL. -/
def execHostRequestFail (c : CoreId) (op first count : Nat) (kind : HostFailKind) (s : State) :=
  act s fun s => onCore s c (hostRequestFail op first count kind)
/-- LANDING_PORT_WRITE. -/
def execLandingPortWrite (c : CoreId) (s : State) := act s fun s => onCore s c landingPortWrite

end Sys2Proof.Machine
end

