-- ==== Sys2Proof/Machine/Fabric.lean ====
section
/-! DEFINITION. Data packets and routed control packets, the rank and forwarding tables and the lot contexts (R309 to R317, R321,
R323, R324). -/

namespace Sys2Proof.Machine

/-! ## Tables and contexts (R311 to R313, R324) -/

/-- A table entry: kind 0 = rank table, 1 = forwarding table. -/
def tableAt (s : State) (kind ix : Nat) : List Word := FMap.look [0, 0, 0, 0] s.rankTables (8192 * kind + ix)

/-- The range of context x in a table: first entry and count. -/
def ctxRange (s : State) (kind x : Nat) : Nat × Nat :=
  let w := s.regN .fab (0x58 + 16 * x + 4 * kind)
  (w % 2 ^ 13, bits w 16 14)

/-- A context is valid. -/
def ctxValid (s : State) (x : Nat) : Bool := s.regBit .fab (0x50 + 16 * x) 31

/-- A context's lot. -/
def ctxLot (s : State) (x : Nat) : Nat := s.regN .fab (0x50 + 16 * x) % 2 ^ 16

/-- The entries of context x's range. -/
def ctxEntries (s : State) (kind x : Nat) : List (List Word) :=
  let (base, n) := ctxRange s kind x
  (List.range n).map fun i => tableAt s kind (base + i)

/-- RANK of an entry. -/
def entryRank (e : List Word) : Nat := (e.getD 0 0).toNat % 2 ^ 20
/-- VALID of an entry. -/
def entryValid (e : List Word) : Bool := bitOf (e.getD 0 0).toNat 31
/-- HOPS of a rank table entry. -/
def entryHops (e : List Word) : Nat := (e.getD 1 0).toNat % 16
/-- ROUTE of a rank table entry. -/
def entryRoute (e : List Word) : Nat := (e.getD 2 0).toNat + 2 ^ 32 * (e.getD 3 0).toNat

/-- Strictly ascending. -/
def ascending : List Nat → Bool
  | a :: b :: l => decide (a < b) && ascending (b :: l)
  | _ => true

/-- A range is one that R313 activates. -/
def rangeReady (s : State) (kind x : Nat) : Bool :=
  let (base, n) := ctxRange s kind x
  let es := ctxEntries s kind x
  decide (base + n ≤ 8192) && es.all entryValid && ascending (es.map entryRank)

/-- FAB_CTX_ACTIVATE: a write of FAB_CTXx_LOT (R313). -/
def fabCtxActivate (x : Nat) (w : Word) (s : State) : State :=
  let off := 0x50 + 16 * x
  let lot := w.toNat % 2 ^ 16
  let taken := (List.range 4).any fun y => y != x && ctxValid s y && ctxLot s y == lot
  if 4 ≤ x then s
  else if !bitOf w.toNat 31 then s.setRegN .fab off lot
  else if lot != 0 && !taken && rangeReady s 0 x && rangeReady s 1 x
      && (ctxEntries s 0 x).all fun e => entryRoute e / 2 ^ (5 * entryHops e) == 0 then
    s.setRegN .fab off (2 ^ 31 + lot)
  else raiseErr (s.setRegN .fab off lot) .fab 0

/-- An entry lies in a valid context's range. -/
def entryLocked (s : State) (kind ix : Nat) : Bool :=
  (List.range 4).any fun x => ctxValid s x && decide ((ctxRange s kind x).1 ≤ ix) && decide (ix < (ctxRange s kind x).1 + (ctxRange s kind x).2)

/-- FAB_TBL_WRITE: a write of FAB_TBL_DATA3 (R313, R324). -/
def fabTblWrite (w : Word) (s : State) : State :=
  let sel := s.regN .fab 0x90
  let kind := sel / 2 ^ 31
  let ix := sel % 2 ^ 13
  let s1 := s.setReg .fab 0xAC w
  if entryLocked s kind ix then s1.countNoEffect .fab
  else { s1 with rankTables := FMap.put [0, 0, 0, 0] s1.rankTables (8192 * kind + ix) [s1.reg .fab 0xA0, s1.reg .fab 0xA4, s1.reg .fab 0xA8, w] }

/-! ## Data packets (R309, R310) -/

/-- What the header of a packet says. -/
structure PktHead where
  lot : Nat
  hops : Nat
  next : Nat
  dstVcore : Nat
  dstRank : Nat
  srcVcore : Nat
  srcRank : Nat
  sig : Option Sig
  last : Bool
  granules : Nat
  dbeat : Nat
  route : Nat
deriving DecidableEq, Repr

/-- The eight header words of a packet. -/
def PktHead.words (h : PktHead) : List Nat :=
  let (op, ctr, v, en) := match h.sig with
    | some g => (g.op, g.ctr, g.value.toNat, 1)
    | none => (0, 0, 0, 0)
  [h.lot * 2 ^ 16 + h.hops * 2 ^ 12 + h.next * 2 ^ 8 + 0x80, h.dstVcore * 2 ^ 20 + h.dstRank, h.srcVcore * 2 ^ 20 + h.srcRank,
   op * 2 ^ 26 + en * 2 ^ 25 + b2n h.last * 2 ^ 24 + (h.granules - 1) * 2 ^ 16 + h.dbeat, ctr, v, h.route % 2 ^ 32, h.route / 2 ^ 32]

/-- Header word i of a packet's bytes. -/
def pktWord (bs : List Byte) (i : Nat) : Nat := leNat ((bs.drop (4 * i)).take 4)

/-- Read a header (R309). A packet's signal counts only with LAST = 1. -/
def headOf (bs : List Byte) : PktHead :=
  let w (i : Nat) : Nat := pktWord bs i
  { lot := w 0 / 2 ^ 16, hops := bits (w 0) 12 4, next := bits (w 0) 8 4, dstVcore := bits (w 1) 20 11, dstRank := w 1 % 2 ^ 20
    srcVcore := bits (w 2) 20 11, srcRank := w 2 % 2 ^ 20
    sig := if bitOf (w 3) 25 && bitOf (w 3) 24 then some ⟨bits (w 3) 26 2, w 4 % 2 ^ 13, BitVec.ofNat 32 (w 5)⟩ else none
    last := bitOf (w 3) 24, granules := bits (w 3) 16 5 + 1, dbeat := w 3 % 2 ^ 16, route := w 6 + 2 ^ 32 * w 7 }

/-- The 256-byte frames of a packet's bytes: the first n − 1 full, the last with what is left. -/
def pktFrames : Nat → Bool → List Byte → List TxFrame
  | 0, _, _ => []
  | fuel + 1, first, bs =>
    if bs.length ≤ 256 then [⟨0, first, true, bs.length, bs⟩]
    else ⟨0, first, false, 256, bs.take 256⟩ :: pktFrames fuel false (bs.drop 256)

/-- A packet's frames: header words and payload in consecutive frames (R309). -/
def framesOf (words : List Nat) (payload : List Byte) : List TxFrame :=
  pktFrames (payload.length / 256 + 2) true (words.flatMap (leBytes 4) ++ payload)

/-- Link ROUTE[h] of a route. -/
def hopLink (route h : Nat) : Nat := bits route (5 * h) 5

/-! ## Sending (R310, R317) -/

/-- The first issued RANK transfer that waits for its grant. -/
def rankWaiter (c : Core) : Option Op := c.inflight.find? fun o => match o.work with
  | .rank none _ => true
  | _ => false

/-- Where a RANK transfer goes, and its signal: destination base and effective beat (R182, R206). -/
def rankTarget (o : Op) : Nat × Nat × Option Sig :=
  let d := o.desc
  if o.eng = 0 then ((fld d 1).base, o.eff.getD 1 0, copySig d)
  else ((sendField d).base, o.eff.getD 2 0, sigOf (dw d 12 / 2 ^ 31) (bits (dw d 12) 29 2) (dw d 13 % 2 ^ 13) (dw d 15))

/-- The beats [first, first + n) of a RANK transfer: as read for a COPY, the sums for an ADD_SEND. -/
def rankBeats (o : Op) (first n : Nat) : List Byte :=
  if o.eng = 0 then o.part 0 first n else ((clSum o).out.drop (64 * first)).take (64 * n)

/-- A panel's packet buffers in use (R310). -/
def niUsed (s : State) (p : Nat) : Nat := FMap.look 0 s.niBufs p

/-- A RANK transfer fills a packet buffer (R310). -/
def fillsBuf (o : Op) : Bool := match o.work with
  | .rank (some (_, left)) false => decide (left < (fld o.desc 0).extent)
  | _ => false

/-- The packet buffers of panel p that are in use: those of packets that wait for their links, and those that transfers of its cores fill
(R310). -/
def bufsHeld (s : State) (p : Nat) : Nat :=
  (s.links.flatMap fun e => e.2.dataQ.filter fun d => d.panelBuf == some p).length
    + (s.cores.flatMap fun e => if e.1 / 288 = p then e.2.inflight.filter fillsBuf else []).length

/-- Operations and packets are gone: the buffers that they held are free. -/
def freeBufs (s : State) : State :=
  (List.range s.fuses.panels).foldl (fun t p => { t with niBufs := FMap.put 0 t.niBufs p (bufsHeld s p) }) s

/-- Take one of a panel's 32 packet buffers. -/
def takeBuf (s : State) (p : Nat) : State := { s with niBufs := FMap.put 0 s.niBufs p (niUsed s p + 1) }

/-- Packet m of a RANK transfer is whole in its buffer, and is queued on its first link: 128 beats, the last packet with what is left, LAST
and the signal (R310, R317). -/
def sendRankPacket (k : Nat) (o : Op) (entry : List Word) (m : Nat) (s : State) : State :=
  let p := k / 288
  let n := (fld o.desc 0).extent
  let (base, beat, sig) := rankTarget o
  let part := rankBeats o (128 * m) (Nat.min 128 (n - 128 * m))
  let last := decide (n ≤ 128 * (m + 1))
  let link := hopLink (entryRoute entry) 0
  let h : PktHead :=
    { lot := (jobLot s).getD 0, hops := entryHops entry, next := 1, dstVcore := bits base 17 11, dstRank := base / 2 ^ 28
      srcVcore := virtOf s k, srcRank := jobRank s, sig := if last then sig else none, last := last, granules := part.length / 256
      dbeat := beat + 128 * m, route := entryRoute entry }
  sendData s link { port := 64 + virtOf s k, lot := h.lot, panelBuf := some p, from_ := none, started := false
                    due := s.wall + 17 + (if link / 4 = p then 0 else 48), frames := framesOf h.words part }

/-- The injection port stands at a RANK transfer of `eng` for `e` ticks of PTC more, or one less. -/
def shiftPort (c : Core) (eng now : Nat) (more : Bool) : Core :=
  { c with port := c.port.map fun x => if x.1 = eng ∧ x.2.1 ≤ now ∧ now < x.2.2 then (x.1, x.2.1, if more then x.2.2 + 1 else x.2.2 - 1) else x }

/-- A RANK transfer that waits for a packet buffer takes one when there is one (R310). -/
def rankBuffer (k : Nat) (o : Op) (s : State) : State × Op :=
  match o.work with
  | .rank (some g) true => if niUsed s (k / 288) < 32 then (takeBuf s (k / 288), { o with work := .rank (some g) false }) else (s, o)
  | _ => (s, o)

/-- `cnt` beats of a RANK transfer enter its packet buffer in this tick: a packet whose last beat is among them is sent, and the next one
needs a buffer of its own (R310). The port stays with the transfer, also while PTC stands still. -/
def rankOut (k : Nat) (o : Op) (cnt : Nat) (s : State) : State × Op :=
  match o.work with
  | .rank (some (e, left)) w =>
    let n := (fld o.desc 0).extent
    let left1 := left + cnt
    if n ≤ left then (s, o)
    else
      let s1 := if (cnt == 0) != planMoves s then s else s.modCore k fun c => shiftPort c o.eng s.ptc.toNat (cnt == 0)
      if cnt = 0 ∨ (left1 % 128 ≠ 0 ∧ left1 < n) then (s1, { o with work := .rank (some (e, left1)) w })
      else
        let s2 := sendRankPacket k o e ((left1 - 1) / 128) s1
        if n ≤ left1 then (s2, { o with work := .rank (some (e, left1)) false })
        else if niUsed s2 (k / 288) < 32 then (takeBuf s2 (k / 288), { o with work := .rank (some (e, left1)) false })
        else (s2, { o with work := .rank (some (e, left1)) true })
  | _ => (s, o)

/-- INJECTION_GRANT (R310): the injection port is free for the transfer's N ticks and the panel's network interface has a free packet
buffer. The sums of an ADD_SEND are there from its tick 4 on (R500). -/
def injectionGrant (k : Nat) (s : State) : State :=
  let c := s.core k
  match rankWaiter c with
  | none => s
  | some o =>
    let n := (fld o.desc 0).extent
    let t := s.ptc.toNat
    let free := c.port.all fun x => decide (x.2.2 ≤ t) || decide (t + n ≤ x.2.1)
    if !clockRuns s || !free || decide (32 ≤ niUsed s (k / 288)) || (o.eng == 5 && decide (o.age < 4)) then s
    else match rankEntry s ((rankTarget o).1 / 2 ^ 28) with
      | none => s.modCore k fun c => modOp c o.id fun o => { o with work := .rank (some ([], n)) false }
      | some e =>
        (takeBuf s (k / 288)).modCore k fun c =>
          { modOp c o.id (fun o => { o with work := .rank (some (e, 0)) false }) with port := c.port ++ [(o.eng, t, t + n)] }

/-! ## Receiving (R315, R317, R319, R321, R323) -/

/-- A network interface fault: recorded with OWN, and a stop only for the job's own lot (R321, R323). -/
def niFault (s : State) (l code lot vcore rank : Nat) : State :=
  let b := Blk.ni (l / 4)
  let own := jobLot s == some lot
  raiseErr (recordFirst s b 0x40 0 0 fun s =>
    ((s.setRegN b 0x40 (2 ^ 31 + b2n own * 2 ^ 30 + code * 2 ^ 21 + l % 32 * 2 ^ 16 + lot)).setRegN b 0x44 (vcore * 2 ^ 20 + rank)).setReg64
      b 0x48 s.ptc.toNat) b (code - 1) own

/-- The format check of R315: the fields of R309 and the destination range. -/
def pktOk (bs : List Byte) : Bool :=
  let h := headOf bs
  let w (i : Nat) : Nat := pktWord bs i
  decide (32 ≤ bs.length) && w 0 % 256 == 0x80 && decide (1 ≤ h.hops) && decide (h.hops ≤ 8) && decide (h.next ≤ h.hops) && !bitOf (w 1) 31
  && !bitOf (w 2) 31 && w 3 / 2 ^ 28 == 0 && bits (w 3) 21 3 == 0 && bits (w 3) 26 2 != 3 && w 4 / 2 ^ 13 == 0
  && h.route / 2 ^ (5 * h.hops) == 0 && decide (h.dbeat + 4 * h.granules ≤ 49152)

/-- Package-wide discards of a job's data: bind-off step 2 (R285), or a stopped package (R460). -/
def discards (s : State) (lot : Nat) : Bool :=
  (match s.bind with
    | some b => b.lot == lot && b.quietFrom.isSome
    | none => false) || (s.flt.stopped && jobLot s == some lot)

/-- A packet of a lot arrives: the quiet time of a bind-off of its lot starts again (R285). -/
def quietAgain (s : State) (lot : Nat) : State :=
  match s.bind with
  | some b => if b.lot = lot ∧ b.quietFrom.isSome then { s with bind := some { b with quietFrom := some s.time.toNat } } else s
  | none => s

/-- Count a discarded packet. -/
def discard (s : State) (lot : Nat) : State := quietAgain (s.incReg .cast 0x70) lot

/-- The frames of the packet that begins at the front of link l's receive buffer go to `dest`, those that are there and those that still
come. -/
def routePacket (s : State) (l : Nat) (dest : PktRoute) (first : RxFrame) : State :=
  let rest := (s.link l).data.rx.drop 1
  let s1 := s.setLink l { s.link l with into := some dest, data := { (s.link l).data with rx := { first with sop := false } :: rest } }
  routeFrames l (rest.length + 1) s1

/-- A packet at its destination: once the external part has room for all of it, its beats land as its frames come, and its last frame is
freed with the first (R228, R315, R317). -/
def takePacket (s : State) (l : Nat) (h : PktHead) (f : RxFrame) : State :=
  if jobLot s != some h.lot || jobRank s != h.dstRank then routePacket (niFault s l 2 h.lot h.dstVcore h.dstRank) l .drop f
  else match physOf s h.dstVcore with
    | none => routePacket (niFault s l 3 h.lot h.dstVcore h.dstRank) l .drop f
    | some k =>
      if !coreOn s k then routePacket (domainOffHost s (k / 288) (k % 288 / 36)) l .drop f
      else if bufferRoom (s.core k) false < 4 * h.granules then s
      else
        let src : Word := BitVec.ofNat 32 (h.srcRank * 2 ^ 11 + h.srcVcore)
        let s1 := (freeRx s l 0 1).modCore k fun c => { c with extHeld := c.extHeld + 4 * h.granules }
        routePacket s1 l (.core k h.granules h.dbeat [] h.sig src) { f with bytes := f.bytes.drop 32 }

/-- The bytes of a packet's first frame with NEXT one higher. -/
def nextHop (bs : List Byte) : List Byte := leBytes 4 (setBits (pktWord bs 0) 8 4 (bits (pktWord bs 0) 8 4 + 1)) ++ bs.drop 4

/-- A packet that is not at its destination goes out on its next hop, 24 ns after its header frame came (R315, R317). -/
def forwardPacket (s : State) (l : Nat) (h : PktHead) (f : RxFrame) : State :=
  let out := hopLink h.route h.next
  if !linkUsable s out then
    let s1 := niFault s l 4 h.lot h.dstVcore h.dstRank
    routePacket (if linkPresent s out then s1.incReg (plyBlk out) 0x8C else s1) l .drop f
  else if !lotAllowed s out h.lot then routePacket (lotDrop s out h.lot true) l .drop f
  else
    let d : TxData := { port := l, lot := h.lot, panelBuf := none, from_ := some l, started := false, due := s.wall + nsToPeriods s 24, more := !f.eop
                        frames := [⟨0, true, f.eop, f.bytes.length, nextHop f.bytes⟩] }
    let s1 := popRx s l 0
    let s2 := s1.setLink out { s1.link out with dataQ := (s1.link out).dataQ ++ [d] }
    if f.eop then s2
    else routeFrames l (s2.link l).data.rx.length (s2.setLink l { s2.link l with into := some (.out out) })

/-- DATA_PACKET: the packet whose first frame is at the front of link l's receive buffer. A frame that begins no packet is dropped. -/
def dataPacket (l : Nat) (s : State) : State :=
  let x := s.link l
  match x.into, x.data.rx with
  | none, f :: _ =>
    let h := headOf f.bytes
    if x.st != .up then s
    else if !f.sop then routePacket s l .drop f
    else if !lotAllowed s l h.lot then routePacket (lotDrop s l h.lot false) l .drop f
    else if discards s h.lot then routePacket (discard s h.lot) l .drop f
    else if !pktOk f.bytes then routePacket (niFault s l 1 h.lot h.dstVcore h.dstRank) l .drop f
    else if h.next = h.hops then takePacket s l h f
    else forwardPacket s l h f
  | _, _ => s

/-! ## Routed control packets (R307, R316) -/

/-- The forwarding entry for a rank in the context of a lot. -/
def forwardEntry (s : State) (lot rank : Nat) : Option (List Word) :=
  match (List.range 4).find? fun x => ctxValid s x && ctxLot s x == lot with
  | none => none
  | some x => tableEntry s 1 (ctxRange s 1 x).1 (ctxRange s 1 x).2 rank

/-- A routed packet is dropped (R316, R324). -/
def fwdDrop (s : State) (ttl : Bool) (rank : Nat) : State :=
  raiseErr ((s.incReg .fab 0xC0).setRegN .fab 0xC4 (b2n ttl * 2 ^ 31 + rank)) .fab 1

/-- A control packet (R307). -/
structure CtlPacket where
  typ : Nat
  routed : Bool
  vl : Nat
  ttl : Nat
  lot : Nat
  dst : Nat
  src : Nat
  body : List Byte
deriving DecidableEq, Repr

/-- Read a control packet from the bytes of its frame. -/
def ctlOf (bs : List Byte) : CtlPacket :=
  let n (a k : Nat) : Nat := leNat ((bs.drop a).take k)
  { typ := n 0 1, routed := bitOf (n 1 1) 0, vl := bits (n 1 1) 1 1, ttl := n 1 1 / 4, lot := n 2 2, dst := n 4 4 % 2 ^ 20, src := n 8 4 % 2 ^ 20
    body := (bs.drop 16).take 48 }

/-- ROUTED and VL of a packet are those of its TYPE (R307). -/
def ctlOk (p : CtlPacket) : Bool := match p.typ with
  | 0x01 | 0x04 => !p.routed && p.vl == 0
  | 0x02 | 0x03 => !p.routed && p.vl == 1
  | 0x10 => p.routed
  | _ => false

/-- A control frame leaves its receive buffer. -/
def takeCtl (s : State) (l vl : Nat) : State := freeRx (popRx s l (1 + vl)) l (1 + vl) 1

/-- A routed packet at this package: delivered, or forwarded on its entry's link and lane. -/
def routeCtl (s : State) (p : CtlPacket) (vl : Nat) : State :=
  match forwardEntry s p.lot p.dst with
  | none => fwdDrop s false p.dst
  | some e =>
    let w := (e.getD 1 0).toNat
    if bitOf w 7 then send s (.fwMsg p.src p.body)
    else if p.ttl ≤ 1 then fwdDrop s true p.dst
    else
      let lane := if bitOf w 5 then 1 else vl
      sendCtl s (w % 32) lane { lot := p.lot, due := s.wall, bytes := ctlBytes 0x10 ((p.ttl - 1) % 64 * 4 + lane * 2 + 1) p.lot p.dst p.src p.body }

/-- FW_MSG: the control packet at the front of virtual lane vl's receive buffer of link l. A cast-on packet of correct form has a command
of its own. -/
def fwMsg (l vl : Nat) (s : State) : State :=
  let lane := vl % 2
  match ((s.link l).cls (1 + lane)).rx with
  | [] => s
  | f :: _ =>
    let p := ctlOf f.bytes
    let s1 := quietAgain (takeCtl s l lane) p.lot
    if (s.link l).st != .up then s
    else if !lotAllowed s l p.lot then lotDrop s1 l p.lot false
    else if !ctlOk p || p.vl != lane then niFault s1 l 1 p.lot 0 p.dst
    else if p.typ != 0x10 then s
    else routeCtl s1 p lane

/-- FAB_CTX_ACTIVATE. -/
def execFabCtxActivate (x : Nat) (w : Word) (s : State) := actBy 0 s (fabCtxActivate x w)
/-- FAB_TBL_WRITE. -/
def execFabTblWrite (w : Word) (s : State) := actBy 0 s (fabTblWrite w)
/-- INJECTION_GRANT. -/
def execInjectionGrant (c : CoreId) (s : State) := act s fun s => onCore s c injectionGrant
/-- DATA_PACKET. -/
def execDataPacket (l : Nat) (s : State) := act s fun s => onBlock s (.ply l) (dataPacket l)
/-- FW_MSG. -/
def execFwMsg (l vl : Nat) (s : State) := act s fun s => onBlock s (.ply l) (fwMsg l vl)

end Sys2Proof.Machine
end

