-- ==== Sys2Proof/Machine/Srv.lean ====
section
/-! DEFINITION. The serving scheduler's bookkeeping: queue pairs and completions, contexts and the request table, pools, prefixes,
motifs, and the end of requests (R326 to R344, R352 to R354). -/

namespace Sys2Proof.Machine

/-! ## Memory that firmware reads and writes -/

/-- Write HBM. -/
def hbmPut (s : State) (a : Nat) (bs : List Byte) : State := { s with hbm := Mem.store s.hbm a bs }

/-- A host address as the function sees it, in the flat host memory. -/
def hostAt (fn a : Nat) : Nat := 2 ^ 64 * fn + a % 2 ^ 64

/-- Read host memory through a function. -/
def hostGet (s : State) (fn a n : Nat) : List Byte := Mem.bytes s.hostMem (hostAt fn a) n

/-- Write host memory through a function. -/
def hostPut (s : State) (fn a : Nat) (bs : List Byte) : State := { s with hostMem := Mem.store s.hostMem (hostAt fn a) bs }

/-- Bus Master Enable of a function: without it its requests to host memory fail (R369). -/
def hostReach (s : State) (fn : Nat) : Bool := (FMap.look {} s.fns fn).bme

/-- Change the scheduler's state. -/
def State.modSrv (s : State) (f : Srv → Srv) : State := { s with srv := f s.srv }

/-! ## State (R326, R382) -/

/-- SRV_STATE.STATE changes: bit 2 of every VFN block. -/
def setSrvState (s : State) (st : SrvSt) : State :=
  if s.srv.st = st then s
  else (List.range 64).foldl (fun s v => raiseIrq s (.vfn (v + 1)) 2) (s.modSrv fun r => { r with st := st })

/-! ## Free choices of firmware -/

/-- The m-th number from 0 that a rising list does not hold. -/
def nthFree (used : List Nat) (m : Nat) : Nat := used.foldl (fun m u => if u ≤ m then m + 1 else m) m

/-- One of the free numbers below `cap`, whichever firmware takes, and the state with the choice counted; none when all are in use. -/
def pickOf (s : State) (used : List Nat) (cap : Nat) : Option (Nat × State) :=
  if cap ≤ used.length then none
  else some (nthFree used (Config.pickFree s.srv.picks % (cap - used.length)), s.modSrv fun r => { r with picks := r.picks + 1 })

/-! ## Functions and queue pairs (R327, R332) -/

/-- The assignment of a virtual function. -/
def vfOf (s : State) (v : Nat) : VfAssign := FMap.look {} s.srv.vfs v

/-- The function that owns a queue pair number; 0 = PF. -/
def qpOwner (s : State) (q : Nat) : Nat :=
  match s.srv.vfs.find? fun e => decide (e.2.first ≤ q) && decide (q < e.2.first + e.2.count) with
  | some e => e.1
  | none => 0

/-- The admin queue pair of a function. -/
def adminQp (s : State) (fn : Nat) : Nat := if fn = 0 then 0 else (vfOf s fn).first

/-- A queue pair, when it has been created. -/
def State.qp (s : State) (q : Nat) : Option Qp := FMap.look none s.srv.qps q

/-- Replace a queue pair. -/
def State.setQp (s : State) (q : Nat) (x : Option Qp) : State := s.modSrv fun r => { r with qps := FMap.put none r.qps q x }

/-- Note whether a number that has no queue pair is in ERROR (R330). -/
def State.setBadQp (s : State) (q : Nat) (bad : Bool) : State :=
  s.modSrv fun r => { r with badQps := r.badQps.erase q ++ (if bad then [q] else []) }

/-- A completion becomes ready on a queue pair; one that is in ERROR or does not exist gets none (R330). -/
def complete (s : State) (q : Nat) (c : Compl) : State :=
  match s.qp q with
  | some x => if x.error then s else s.setQp q (some { x with ready := x.ready ++ [c] })
  | none => s

/-! ## Pools and pages (R342, R343) -/

/-- A pool. -/
def State.pool (s : State) (i : Nat) : Pool := FMap.look {} s.srv.pools i

/-- Replace a pool. -/
def State.setPool (s : State) (i : Nat) (x : Pool) : State := s.modSrv fun r => { r with pools := FMap.put {} r.pools i x }

/-- Take a page of a pool: any of its free pages. -/
def takePage (s : State) (i : Nat) : Nat × State :=
  let x := s.pool i
  let n := x.free.getD (Config.pickFree s.srv.picks % x.free.length) 0
  (n, (s.setPool i { x with free := x.free.erase n }).modSrv fun r => { r with picks := r.picks + 1 })

/-- Return pages to their pool. -/
def givePages (s : State) (i : Nat) (pages : List Nat) : State :=
  let x := s.pool i
  s.setPool i { x with free := x.free ++ pages }

/-- Change a pool's count of reserved pages. -/
def unreserve (s : State) (i n : Nat) : State :=
  let x := s.pool i
  s.setPool i { x with reserved := x.reserved - n }

/-- Write one entry of a context's page table (R342). -/
def tableEntryPut (s : State) (pool ptPage ix : Nat) (v : Nat) : State :=
  hbmPut s ((s.pool pool).addr + 65536 * ptPage + 4 * ix) (leBytes 4 v)

/-! ## Contexts and the request table (R336) -/

/-- The STATE code of a context. -/
def CtxSt.code : CtxSt → Nat
  | .queued => 1 | .prefill => 2 | .decode => 3 | .ending => 4

/-- The 128 bytes of a context's entry. -/
def ctxBytes (x : Ctx) : List Byte :=
  let b (n v : Nat) : List Byte := leBytes n v
  b 1 x.st.code ++ b 1 (b2n x.lateFirst + 2 * b2n x.lateGap + 4 * b2n x.isForecast) ++ b 1 x.draft ++ b 1 0 ++ b 4 x.qp ++ b 4 x.cid ++ b 4 x.motif
    ++ b 8 x.prefixH ++ b 2 x.pool ++ b 2 0 ++ b 4 x.ptPage ++ b 4 x.shared ++ b 4 x.promptTotal ++ b 4 x.committed ++ b 4 x.inToken
    ++ b 4 x.maxNew ++ b 4 x.tokens ++ b 4 x.reserved ++ b 4 x.temp ++ b 2 x.topk ++ b 2 x.topp ++ b 4 x.strm ++ b 8 x.out ++ b 8 x.tSubmit
    ++ b 8 x.tFirst ++ b 8 x.tLast ++ b 8 (x.deadline.getD (2 ^ 64 - 1)) ++ b 4 x.maxGap ++ b 4 0 ++ b 8 x.promptAddr

/-- A context that is not FREE. -/
def State.ctx (s : State) (c : Nat) : Option Ctx := FMap.look none s.srv.ctxs c

/-- Update a context and its entry of the request table. -/
def State.setCtx (s : State) (c : Nat) (x : Ctx) : State :=
  let s1 := s.modSrv fun r => { r with ctxs := FMap.put none r.ctxs c (some x) }
  match s.srv.params with
  | some p => hbmPut s1 (p.requestTable + 128 * c) (ctxBytes x)
  | none => s1

/-- A context becomes FREE. -/
def State.freeCtx (s : State) (c : Nat) : State :=
  let s1 := s.modSrv fun r => { r with ctxs := FMap.put none r.ctxs c none }
  match s.srv.params with
  | some p => hbmPut s1 (p.requestTable + 128 * c) [0]
  | none => s1

/-- The contexts that are not FREE. -/
def liveCtxs (s : State) : List (Nat × Ctx) := s.srv.ctxs.filterMap fun e => e.2.map fun x => (e.1, x)

/-- A request is outstanding: its context has not ended. -/
def Ctx.open (x : Ctx) : Bool := x.st != .ending

/-- The outstanding requests of a queue pair. -/
def openOf (s : State) (q : Nat) : List (Nat × Ctx) := (liveCtxs s).filter fun e => e.2.open && e.2.qp == q && e.2.isPrefix.isNone

/-- Tokens (or input bytes) of a context that are staged and not yet prefilled (R335, R358). -/
def stagedOf (s : State) (x : Ctx) : Nat :=
  if !x.open then 0
  else if x.isForecast then
    match s.srv.params with
    | some p => (x.series - x.nextSeries) * ((p.models.getD x.model ⟨0, 0, 0, 0, 0, 0, 0⟩).inBytes)
    | none => 0
  else if x.st = .decode then 0 else Nat.min x.promptLen (x.promptTotal - x.committed)

/-- SRV_QTOK. -/
def qtok (s : State) : Nat := ((liveCtxs s).map fun e => stagedOf s e.2).sum

/-- The completion of a request as it stands (R333). -/
def complOf (s : State) (c : Nat) (x : Ctx) (status flags : Nat) (final : Bool) : Compl :=
  let sat (n : Nat) : Nat := Nat.min n 0xFFFFFFFF
  { cid := x.cid, status := status, flags := flags + 2 * b2n (x.lateFirst || x.lateGap), sqhd := x.sqhd
    tokens := if x.isForecast then x.doneSeries else x.tokens
    result := if x.isForecast || x.isPrefix.isSome then 0 else x.committed
    ttft := if x.isForecast then sat (s.time.toNat - x.tSubmit) else if x.tFirst = 0 then 0 else sat (x.tFirst - x.tSubmit)
    maxGap := if x.isForecast then 0 else sat x.maxGap
    ctx := if final then some c else none }

/-! ## Prefixes (R337, R339) -/

/-- A prefix slot. -/
def State.prefixAt (s : State) (i : Nat) : Prefix := FMap.look {} s.srv.prefixes i

/-- Replace a prefix slot. -/
def State.setPrefix (s : State) (i : Nat) (x : Prefix) : State := s.modSrv fun r => { r with prefixes := FMap.put {} r.prefixes i x }

/-- The handle of a slot with a generation. -/
def handleOf (slot gen : Nat) : Nat := gen * 2 ^ 40 + slot

/-- The next generation of a slot: from `top` it wraps to 1. -/
def nextGen (gen top : Nat) : Nat := if gen = top then 1 else gen + 1

/-- A handle is current: its slot, or none. -/
def currentPrefix (s : State) (h : Nat) : Option Nat :=
  let slot := h % 2 ^ 20
  let x := s.prefixAt slot
  if x.registered && x.ready && h == handleOf slot x.gen then some slot else none

/-- The pages of released prefixes return once no context uses the handle (R339). -/
def settleRetired (s : State) : State :=
  let used (h : Nat) : Bool := (liveCtxs s).any fun e => e.2.open && e.2.prefixH == h
  let gone := s.srv.retired.filter fun r => !used r.handle
  gone.foldl (fun s r => unreserve (givePages s r.pool r.pages) r.pool r.pages.length)
    (s.modSrv fun r => { r with retired := r.retired.filter fun x => used x.handle })

/-- A prefix slot is released: stale at once. -/
def releaseSlot (s : State) (i : Nat) : State :=
  let x := s.prefixAt i
  let s1 := s.setPrefix i { gen := nextGen x.gen 0xFFFFFF }
  if x.ready && !x.lost then settleRetired (s1.modSrv fun r => { r with retired := r.retired ++ [⟨handleOf i x.gen, x.pool, x.pages.map (·.2)⟩] })
  else s1

/-! ## Motifs (R340, R341) -/

/-- A motif slot. -/
def State.motif (s : State) (i : Nat) : Motif := FMap.look {} s.srv.motifs i

/-- Replace a motif slot. -/
def State.setMotif (s : State) (i : Nat) (x : Motif) : State := s.modSrv fun r => { r with motifs := FMap.put {} r.motifs i x }

/-- A motif identifier is current: its slot, or none. -/
def currentMotif (s : State) (m : Nat) : Option Nat :=
  let slot := m % 2 ^ 16
  let x := s.motif slot
  if x.registered && m == x.gen * 2 ^ 16 + slot then some slot else none

/-- A motif's identifier becomes stale; the slot waits until no context uses it (R341). -/
def releaseMotifSlot (s : State) (i : Nat) (note : Option (Nat × Nat × Nat)) : State :=
  let x := s.motif i
  s.setMotif i { x with gen := nextGen x.gen 0xFFFF, registered := false, releasing := some note }

/-! ## The end of a request (R336, R343) -/

/-- A context gives back its private pages, its table page and its reservation. -/
def releasePages (s : State) (x : Ctx) : State :=
  if x.isForecast then s
  else unreserve (givePages s x.pool (x.pages.map (·.2) ++ [x.ptPage])) x.pool x.reserved

/-- A registration that does not complete gives its prefix slot up. -/
def dropSlot (s : State) (x : Ctx) : State :=
  match x.isPrefix with
  | some i => s.setPrefix i { gen := (s.prefixAt i).gen }
  | none => s

/-- A request ends with a final completion: its context is ENDING until that is written. -/
def endCtx (s : State) (c status flags : Nat) : State :=
  match s.ctx c with
  | none => s
  | some x =>
    let ended : Ctx := { x with st := .ending, pages := [], reserved := 0 }
    let s1 := (releasePages (if status = 0 then s else dropSlot s x) x).setCtx c ended
    let s2 := match s1.qp x.qp with
      | some q => if q.error then s1.freeCtx c else complete s1 x.qp (complOf s1 c ended status flags true)
      | none => s1.freeCtx c
    settleRetired s2

/-- A request ends without a completion (R330, R367). -/
def dropCtx (s : State) (c : Nat) : State :=
  match s.ctx c with
  | none => s
  | some x =>
    let s1 := if x.open then releasePages (dropSlot s x) x else s
    settleRetired (s1.freeCtx c)

/-- A queue pair that is being deleted and has nothing left to post goes, and the completion of the deletion follows (R351). -/
def finishDelete (s : State) (q : Nat) : State :=
  match s.qp q with
  | none => s
  | some x => match x.deleting with
    | none => s
    | some note =>
      if !x.ready.isEmpty && !x.error || !(openOf s q).isEmpty then s
      else
        let s1 := ((liveCtxs s).filter fun e => e.2.qp == q).foldl (fun s e => s.freeCtx e.1) (s.setQp q none)
        match note with
        | some (a, cid, sqhd) => complete s1 a { cid := cid, status := 0, sqhd := sqhd }
        | none => s1

/-! ## CANCEL, RIP_BACK and deletions at step 3 (R344, R347, R350, R351) -/

/-- The outstanding request of a queue pair with a CID. -/
def findRequest (s : State) (q cid : Nat) : Option (Nat × Ctx) := (openOf s q).find? fun e => e.2.cid == cid

/-- Spans after floor(COMMITTED ÷ TPP) go back to the pool, and their entries become absent (R344). -/
def trimSpans (s : State) (c : Nat) (p : SrvParams) : State :=
  match s.ctx c with
  | none => s
  | some x =>
    let limit := p.pps * (x.committed / p.tpp + 1)
    let (keep, drop) := (x.pages.filter fun e => decide (e.1 < limit), x.pages.filter fun e => decide (limit ≤ e.1))
    let s1 := drop.foldl (fun s e => tableEntryPut s x.pool x.ptPage e.1 0xFFFFFFFF) (givePages s x.pool (drop.map (·.2)))
    s1.setCtx c { x with pages := keep }

/-- RIP_BACK at its application (R350). -/
def applyRipBack (s : State) (t : TakenCmd) (target length next : Nat) : State :=
  let answer (s : State) (status result : Nat) : State := complete s t.qp { cid := t.cid, status := status, sqhd := t.sqhd, result := result }
  match findRequest s t.qp target, s.srv.params with
  | some (c, x), some p =>
    if x.isForecast then answer s 0x18 0
    else if length < x.shared || x.committed < length || x.committed < x.promptTotal then answer s 0x15 x.committed
    else answer (trimSpans (s.setCtx c { x with committed := length, inToken := next }) c p) 0 length
  | _, _ => answer s 0x18 0

/-- One taken command takes effect. -/
def applyTaken (s : State) (t : TakenCmd) : State :=
  match t.act with
  | .cancel target =>
    (match findRequest s t.qp target with
      | some (c, _) => complete (endCtx s c 0x20 0) t.qp { cid := t.cid, status := 0, sqhd := t.sqhd }
      | none => complete s t.qp { cid := t.cid, status := 0x18, sqhd := t.sqhd })
  | .ripBack target length next => applyRipBack s t target length next
  | .endAll victim silent =>
    let s1 := ((liveCtxs s).filter fun e => e.2.qp == victim && (silent || e.2.open)).foldl (fun s e =>
      if silent then dropCtx s e.1 else endCtx s e.1 0x20 0) s
    finishDelete s1 victim

/-- Steps run: a command that touches a request waits for step 3 of R347. -/
def stepsRun (s : State) : Bool := s.srv.st == .ready && (match s.srv.params with
  | some p => !p.forecasting
  | none => false)

/-- Take a command for step 3, or apply it at once when no steps run. -/
def take (s : State) (t : TakenCmd) : State :=
  if stepsRun s then s.modSrv fun r => { r with taken := r.taken ++ [t] } else applyTaken s t

/-! ## Errors of queue pairs (R330, R358) -/

/-- A queue pair error: recorded, and the queue pair, created or not, enters ERROR; its requests end without completions. -/
def qpError (s : State) (q code : Nat) : State :=
  let fn := qpOwner s q
  let word := 2 ^ 31 + code * 2 ^ 20 + q % 2 ^ 18
  let record (s : State) (b : Blk) (off : Nat) : State := if s.regBit b off 31 then s else s.setRegN b off word
  let s1 := record s .srv 0x7C
  let s2 := raiseIrq (raiseErr s1 .srv 0) .srv 1
  let s3 := if fn = 0 then s2 else raiseIrq (record s2 (.vfn fn) 0x1007C) (.vfn fn) 1
  match s3.qp q with
  | none => s3.setBadQp q true
  | some x =>
    if x.error then s3
    else take (s3.setQp q (some { x with error := true, ready := [] })) { qp := q, cid := 0, sqhd := 0, act := .endAll q true }

/-! ## The end of a job (R326, R354) -/

/-- Every outstanding request is lost with the job; prefixes lose their pages. -/
def loseRequests (s : State) : State :=
  let s1 := ((liveCtxs s).filter fun e => e.2.open).foldl (fun s e => endCtx s e.1 0x21 0) s
  let s2 := s1.srv.taken.foldl applyTaken (s1.modSrv fun r => { r with taken := [] })
  s2.modSrv fun r => { r with
    stepRunning := false, slots := [], batches := [], drainOrder := [], retired := []
    prefixes := r.prefixes.map fun e => (e.1, { e.2 with lost := e.2.lost || e.2.registered }) }

/-- SRV_STATE becomes STOPPED at a stop (R354). -/
def servingStop (s : State) : State := if s.srv.st = .ready then setSrvState (loseRequests s) .stopped else s

/-- The same where the FLT block stops the package by itself: every request is lost, and no completion is sent (R354, R461). -/
def servingHwStop (s : State) : State :=
  let s1 := ((liveCtxs s).filter fun e => e.2.open).foldl (fun s e => dropCtx s e.1) s
  servingStop (s1.modSrv fun r => { r with taken := [] })

/-- The parameters go with the job at a bind-off (R325, R326). -/
def servingUnbind (s : State) : State :=
  (setSrvState (if s.srv.st = .ready then loseRequests s else s) .none).modSrv fun r => { r with params := none }

/-- A serving job releases: prefixes of an earlier job are stale, and every panel with cores of the pattern is idle (R326, R354). -/
def servingRelease (s : State) : State :=
  match s.srv.params with
  | none => s
  | some p =>
    let stale := (s.srv.prefixes.filter fun e => e.2.lost).foldl (fun s e => releaseSlot s e.1) s
    setSrvState (stale.modSrv fun r => { r with drainOrder := (List.range (ceilDiv p.stepCharts.length 256)).map fun q => (0, q) }) .ready

end Sys2Proof.Machine
end

