-- ==== Sys2Proof/Machine/Cast.lean ====
section
/-! DEFINITION. Cast-on, its failures and fault notices, bind-off, and writes of row counters (R272 to R290, R464, R465). -/

namespace Sys2Proof.Machine

/-! ## Nodes (R274, R276, R290) -/

/-- A barrier node. -/
def State.node (s : State) (n : Nat) : Node := FMap.look {} s.nodes n

/-- Replace a node. -/
def State.setNode (s : State) (n : Nat) (x : Node) : State := { s with nodes := FMap.put {} s.nodes n x }

/-- CAST_NODEn_CFG. -/
def nodeCfg (s : State) (n : Nat) : Nat := s.regN .cast (0x100 + 16 * n)
/-- CAST_NODEn_LOT. -/
def nodeLot (s : State) (n : Nat) : Nat := s.regN .cast (0x104 + 16 * n) % 2 ^ 16
/-- CAST_NODEn_INMASK. -/
def nodeMask (s : State) (n : Nat) : Nat := s.regN .cast (0x108 + 16 * n)
/-- The node is the root. -/
def nodeRoot (s : State) (n : Nat) : Bool := bitOf (nodeCfg s n) 30

/-- CAST_NODEn_ARRIVED. -/
def Node.arrived (x : Node) : Nat := (x.arrivals.map (·.1) ++ x.localSlot.toList).foldl (fun m i => m ||| 2 ^ i) 0

/-- The slots of INMASK that have not arrived. -/
def nodeMissing (s : State) (n : Nat) : Nat := nodeMask s n &&& (0xFFFFFFFF ^^^ (s.node n).arrived)

/-- A node takes packets of a lot: it is enabled and carries the lot (R275). -/
def nodeTakes (s : State) (n lot : Nat) : Bool := decide (n < 64) && (s.node n).st != .disabled && nodeLot s n == lot

/-- A cast-on packet is discarded (R275, R276). -/
def castDrop (s : State) : State := s.incReg .cast 0x74

/-- This package's rank in a lot. -/
def lotRank (s : State) (lot : Nat) : Nat :=
  match (List.range 4).find? fun x => ctxValid s x && ctxLot s x == lot with
  | some x => s.regN .fab (0x54 + 16 * x) % 2 ^ 20
  | none => 0

/-! ## Packets of a node (R276, R278, R307, R465) -/

/-- The 48 body bytes of a control packet from (offset, bytes) parts. -/
def ctlBody (parts : List (Nat × List Byte)) : List Byte :=
  Mem.bytes (parts.foldl (fun m e => Mem.store m (e.1 - 16) e.2) []) 0 48

/-- Send a cast-on packet of node n over a link, 8 pt of forwarding ahead (R276). -/
def castLink (s : State) (n l vl typ : Nat) (release : Option Nat) (body : List (Nat × List Byte)) : State :=
  let lot := nodeLot s n
  sendCtl s l vl { lot := lot, bytes := ctlBytes typ (2 * vl) lot 0 (lotRank s lot) (ctlBody body), due := s.wall + 8, release := release }

/-- Send a cast-on packet to a node of this package: 8 pt of forwarding and 24 pt on the edge (R276, R278). -/
def castEdge (s : State) (m : CastMsg) : State := { s with castMsgs := s.castMsgs ++ [(s.wall + 32, m)] }

/-- The body of a NOTICE (R465). -/
def noticeParts (b : NoticeBody) : List (Nat × List Byte) :=
  [(16, leBytes 1 b.node), (17, leBytes 1 b.slot), (18, leBytes 1 b.dir), (19, leBytes 1 b.kind), (20, leBytes 4 (b.origin % 2 ^ 20)),
   (24, leBytes 8 b.time.toNat), (32, leBytes 8 b.ptc.toNat), (40, leBytes 1 b.typ), (41, leBytes 1 b.bit), (42, leBytes 1 b.panel),
   (44, leBytes 4 b.missing.toNat)]

/-- A notice sent or forwarded is counted (R484). -/
def noticeSent (s : State) : State := s.incReg .flt 0x68

/-- Send a notice from node n to its parent (R464, R465); a root has none. -/
def noticeUp (s : State) (n : Nat) (b : NoticeBody) : State :=
  let cfg := nodeCfg s n
  let b1 : NoticeBody := { b with node := bits cfg 8 6, slot := cfg % 32, dir := 0 }
  match bits cfg 28 2 with
  | 1 => castEdge (noticeSent s) (.notice n b1)
  | 2 => castLink (noticeSent s) n (bits cfg 16 5) 0 0x04 none (noticeParts b1)
  | _ => s

/-- Send a notice from node n to the child behind one arrival. -/
def noticeDown (n : Nat) (b : NoticeBody) (s : State) (e : Nat × CastSrc) : State :=
  match e.2 with
  | .node m => castEdge (noticeSent s) (.notice n { b with node := m, slot := 0xFF, dir := 1 })
  | .link l =>
    let b1 : NoticeBody := { b with node := Config.childNode l n e.1, slot := 0xFF, dir := 1 }
    castLink (noticeSent s) n l 0 0x04 none (noticeParts b1)

/-- A notice that starts at node n of this package (R279, R283, R464): KIND and missing slots. -/
def ownNotice (s : State) (n kind missing : Nat) : NoticeBody :=
  let f := match s.flt.first with
    | some w => w.toNat
    | none => 0
  { node := 0, slot := 0, dir := 0, kind := kind, origin := lotRank s (nodeLot s n), time := s.time, ptc := s.ptc, typ := f % 256
    bit := bits f 13 5, panel := bits f 28 3, missing := BitVec.ofNat 32 missing }

/-! ## Failures (R279, R283, R284, R289) -/

/-- A node enters FAILED; with the package's local arrival in it, an ARRIVED package becomes FAILED and releases no more. -/
def nodeFail (s : State) (n : Nat) : State :=
  let x := s.node n
  let s1 := s.setNode n { x with st := .failed }
  let pend := match s.castRelease with
    | some p => if p.node = n then none else some p
    | none => none
  if x.localSlot.isSome ∧ s.castSt = .arrived then { s1 with castSt := .failed, castRelease := pend } else s1

/-- A cast-on fault: 1 = CASTON_TIMEOUT, 2 = CASTON_SHORT, 3 = CASTON_LATE; the first since REARM is recorded. -/
def castFault (s : State) (code n missing : Nat) : State :=
  raiseErr (recordFirst s .cast 0x60 0 0 fun s =>
    (s.setRegN .cast 0x60 (2 ^ 31 + code * 2 ^ 16 + n % 64 * 2 ^ 8)).setRegN .cast 0x64 missing) .cast (code - 1)

/-- Send an abort from node n along one arrival (R284). -/
def abortDown (n : Nat) (s : State) (e : Nat × CastSrc) : State :=
  match e.2 with
  | .node m => castEdge s (.abort n m)
  | .link l => castLink s n l 1 0x03 none [(16, leBytes 1 (Config.childNode l n e.1))]

/-- The root fails before its release: the fault names `who` with its missing slots, and every arrival gets an abort (R284). -/
def rootFail (s : State) (n who missing : Nat) : State :=
  (s.node n).arrivals.foldl (abortDown n) (nodeFail (castFault s 1 who missing) n)

/-- A node fails with a fault of its own (R279, R283): its parent gets a notice; a root has none, does not release, and sends
the abort of R284. -/
def nodeFault (s : State) (n code kind : Nat) : State :=
  let missing := nodeMissing s n
  let s1 := nodeFail (castFault s code n missing) n
  if nodeRoot s n then (s.node n).arrivals.foldl (abortDown n) s1 else noticeUp s1 n (ownNotice s n kind missing)

/-! ## Release (R278, R279) -/

/-- What the next hop costs in 1/16 pt: 8 pt of forwarding, then 24 pt or the gauge. -/
def hopCost (s : State) : CastSrc → Nat
  | .node _ => 128 + 384
  | .link l => 128 + s.regN (plyBlk l) 0x58

/-- Forward a release with remaining time r to the child behind one arrival. -/
def releaseDown (n r : Nat) (base : DWord) (s : State) (e : Nat × CastSrc) : State :=
  let left := r - hopCost s e.2
  match e.2 with
  | .node m => castEdge s (.release n m left base)
  | .link l => castLink s n l 1 0x02 (some left) [(16, leBytes 1 (Config.childNode l n e.1)), (20, leBytes 3 left), (24, leBytes 8 base.toNat)]

/-- Node n releases with remaining time r, rounded down to a whole tick for its local arrival. With a child that the time no
longer reaches, nothing is forwarded and the node fails. -/
def nodeRelease (s : State) (n r : Nat) (base : DWord) : State :=
  let x := s.node n
  if x.arrivals.any fun e => decide (r < hopCost s e.2) then nodeFault s n 2 3
  else
    let s1 := x.arrivals.foldl (releaseDown n r base) (s.setNode n { x with st := .released })
    if x.localSlot.isSome then { s1 with castRelease := some ⟨s.wall + r / 16, base, n⟩ } else s1

/-! ## Arrivals (R276, R277) -/

/-- Forward the arrival of node n to its parent. -/
def arriveUp (s : State) (n : Nat) : State :=
  let cfg := nodeCfg s n
  match bits cfg 28 2 with
  | 1 => castEdge s (.arrive n (bits cfg 8 6) (cfg % 32))
  | 2 => castLink s n (bits cfg 16 5) 0 0x01 none [(16, leBytes 1 (bits cfg 8 6)), (17, leBytes 1 (cfg % 32))]
  | _ => s

/-- An arrival enters node n at a slot; `src` is none for the package's own. -/
def nodeArrive (s : State) (n slot : Nat) (src : Option CastSrc) : State :=
  let x := s.node n
  let ready := x.st = .idle ∨ x.st = .collecting
  if !decide ready || decide (32 ≤ slot) || !bitOf (nodeMask s n) slot || bitOf x.arrived slot then castDrop s
  else
    let x1 : Node := { x with
      st := .collecting, timer := if x.st = .idle then s.time.toNat else x.timer
      arrivals := match src with
        | some p => x.arrivals ++ [(slot, p)]
        | none => x.arrivals
      localSlot := if src.isNone then some slot else x.localSlot }
    let s1 := s.setNode n x1
    if nodeMissing s1 n != 0 then s1
    else if nodeRoot s n then nodeRelease s1 n (s.regN .cast 0x4C % 2 ^ 24) (BitVec.ofNat 64 (s.reg64 .cast 0x50))
    else arriveUp (s1.setNode n { x1 with st := .sent }) n

/-- The package's local arrival enters its node. -/
def localArrive (s : State) : State :=
  let c := s.regN .cast 0x40
  nodeArrive { s with castSt := .arrived, castDeferred := false } (bits c 8 6) (bits c 16 5) none

/-- CAST_CTRL_ARRIVE: a write of CAST_CTRL.ARRIVE (R277, R289). -/
def castCtrlArrive (s : State) : State :=
  if s.castSt != .idle then s.countNoEffect .cast
  else if s.bind.isSome then { s with castDeferred := true }
  else localArrive s

/-- A cast-on packet arrives: the one at the front of a link's receive buffer after its lot check there, or one that is due on an edge of
this package. -/
def castIn (s : State) (src : CastSrc) (lot vl : Nat) (isPkt : CtlPacket → Bool → Bool) (isMsg : CastMsg → Bool) (f : State → State) : State :=
  match src with
  | .link l =>
    match ((s.link l).cls (1 + vl)).rx with
    | [] => s
    | g :: _ =>
      let p := ctlOf g.bytes
      if !writable s (plyBlk l) || (s.link l).st != .up || !isPkt p g.rpl || p.lot != lot || p.routed || p.vl != vl then s
      else
        let s1 := quietAgain (takeCtl s l vl) lot
        if !lotAllowed s l lot then lotDrop s1 l lot false else f s1
  | .node m =>
    if nodeLot s m != lot then s
    else match s.castMsgs.find? fun e => decide (e.1 ≤ s.wall) && isMsg e.2 with
      | none => s
      | some e => f { s with castMsgs := s.castMsgs.erase e }

/-- The unsigned value of `n` bytes of a control packet from its byte `a` on. -/
def CtlPacket.nat (p : CtlPacket) (a n : Nat) : Nat := leNat ((p.body.drop (a - 16)).take n)

/-- The node behind an edge of this package. -/
def srcNode : CastSrc → Nat
  | .node m => m
  | .link _ => 64

/-- CAST_ARRIVE (R276). -/
def castArrive (src : CastSrc) (lot n slot : Nat) (s : State) : State :=
  castIn s src lot 0 (fun p _ => p.typ == 1 && p.nat 16 1 == n && p.nat 17 1 == slot) (fun m => decide (m = .arrive (srcNode src) n slot)) fun s =>
    if nodeTakes s n lot then nodeArrive s n slot (some src) else castDrop s

/-- CAST_RELEASE (R278, R279): `replayed` is RPL of the frame that brought it. -/
def castRelease (src : CastSrc) (lot n remaining : Nat) (base : DWord) (replayed : Bool) (s : State) : State :=
  castIn s src lot 1 (fun p rpl => p.typ == 2 && p.nat 16 1 == n && p.nat 20 3 == remaining && p.nat 24 8 == base.toNat && rpl == replayed)
    (fun m => decide (m = .release (srcNode src) n remaining base)) fun s =>
    if !nodeTakes s n lot then castDrop s
    else if (s.node n).st != .sent then s
    else if replayed then nodeFault s n 3 4
    else nodeRelease s n remaining base

/-- CAST_ABORT (R284). -/
def castAbort (src : CastSrc) (lot n : Nat) (s : State) : State :=
  castIn s src lot 1 (fun p _ => p.typ == 3 && p.nat 16 1 == n) (fun m => decide (m = .abort (srcNode src) n)) fun s =>
    if nodeTakes s n lot then (s.node n).arrivals.foldl (abortDown n) (nodeFail s n) else castDrop s

/-- CASTON_NODE_TIMEOUT (R283, R284): the node's timer has run for CAST_TIMEOUT.US. -/
def castonNodeTimeout (n : Nat) (s : State) : State :=
  let x := s.node n
  if n < 64 ∧ x.st = .collecting ∧ s.regN .cast 0x48 % 2 ^ 16 * 1000 ≤ s.time.toNat - x.timer then
    if nodeRoot s n then rootFail s n n (nodeMissing s n) else nodeFault s n 1 2
  else s

/-! ## Notices (R283, R284, R464) -/

/-- Count a notice, and record the first since the last CLEAR. -/
def countNotice (s : State) (b : NoticeBody) : State :=
  let s1 := s.incReg .flt 0x64
  match s.flt.noticeSrc with
  | some _ => s1
  | none => { s1 with flt := { s1.flt with noticeSrc := some (BitVec.ofNat 32 (2 ^ 31 + b.kind % 8 * 2 ^ 20 + b.origin % 2 ^ 20)) } }

/-- Forward the first notice at a node that has its release: to the parent unless it came from there, and to every child but the
one it came from. -/
def noticeSpread (s : State) (n : Nat) (b : NoticeBody) : State :=
  let kids := (s.node n).arrivals.filter fun e => b.dir == 1 || e.1 != b.slot
  kids.foldl (noticeDown n b) (if b.dir = 1 then s else noticeUp s n b)

/-- What the package does about a notice at node n: a released package of the job stops; one that waits for its release fails. -/
def noticeTaken (s : State) (n : Nat) : State :=
  if s.castSt = .released ∧ jobLot s = some (nodeLot s n) then raiseErr s .flt 0
  else if (s.node n).localSlot.isSome ∧ s.castSt = .arrived then nodeFail s n
  else s

/-- A notice at node n. -/
def noticeAt (s0 : State) (n : Nat) (b : NoticeBody) : State :=
  let x := s0.node n
  let s := (countNotice s0 b).setNode n { x with noticed := true }
  if x.noticed then noticeTaken s n
  else if x.st = .released then noticeTaken (noticeSpread s n b) n
  else if nodeRoot s n then noticeTaken (if x.st = .failed then s else rootFail s n b.node b.missing.toNat) n
  else noticeTaken (if b.dir = 1 then nodeFail s n else noticeUp (nodeFail s n) n b) n

/-- The body of a NOTICE packet (R465). -/
def noticeOf (p : CtlPacket) : NoticeBody :=
  { node := p.nat 16 1, slot := p.nat 17 1, dir := p.nat 18 1, kind := p.nat 19 1, origin := p.nat 20 4 % 2 ^ 20
    time := BitVec.ofNat 64 (p.nat 24 8), ptc := BitVec.ofNat 64 (p.nat 32 8), typ := p.nat 40 1, bit := p.nat 41 1, panel := p.nat 42 1
    missing := BitVec.ofNat 32 (p.nat 44 4) }

/-- NOTICE. -/
def notice (src : CastSrc) (lot : Nat) (b : NoticeBody) (s : State) : State :=
  castIn s src lot 0 (fun p _ => p.typ == 4 && decide (noticeOf p = b)) (fun m => decide (m = .notice (srcNode src) b)) fun s =>
    if nodeTakes s b.node lot then noticeAt s b.node b else castDrop s

/-- The fault notice of a stop (R464): from the node that holds the local arrival, while the cast-on is under way or complete. -/
def stopNotice (s : State) : State :=
  match s.nodes.find? fun e => e.2.localSlot.isSome with
  | none => s
  | some (n, x) =>
    if s.castSt != .arrived && s.castSt != .released then s
    else
      let b := ownNotice s n 1 0
      match x.st with
      | .released => x.arrivals.foldl (noticeDown n b) (noticeUp s n b)
      | .collecting | .sent => if nodeRoot s n then rootFail s n n (nodeMissing s n) else noticeUp s n b
      | _ => s

/-! ## REARM (R276, R289) -/

/-- A node after REARM. -/
def Node.rearmed (x : Node) : Node := if x.st = .released ∨ x.st = .failed then { st := .idle } else x

/-- CAST_REARM. -/
def castRearm (s : State) : State :=
  if anyRunning s then s.countNoEffect .cast
  else
    let s1 := (List.range 64).foldl (fun s n => s.setNode n (s.node n).rearmed) s
    ({ s1 with castSt := .idle, castRelease := none }.setRegN .cast 0x60 0).setRegN .cast 0x64 0

/-! ## The release of the package (R280, R281) -/

/-- Set registers of a block to 0. -/
def State.zeroRegs (s : State) (b : Blk) (offs : List Nat) : State := offs.foldl (fun s o => s.setRegN b o 0) s

/-- The records of one panel that a release clears (R146, R147, R174, R221, R259, R288, R323, R417). -/
def clearPanelRecords (s : State) (p : Nat) : State :=
  let s1 := s.zeroRegs (.num p) ([0x44, 0x48, 0x4C] ++ (List.range 9).flatMap fun i => [0x80 + 4 * i, 0xC0 + 4 * i, 0x100 + 4 * i])
  let s2 := (s1.zeroRegs (.sa p) [0x40, 0x44, 0x48, 0x4C]).zeroRegs (.eng p) [0x40, 0x44, 0x48, 0x4C]
  let s3 := (s2.zeroRegs (.skn p) [0x48, 0x4C, 0x50, 0x54]).zeroRegs (.row p) [0x54, 0x58, 0x5C, 0x60]
  (s3.zeroRegs (.ni p) [0x40, 0x44, 0x48, 0x4C]).zeroRegs (.pwr p) [0x70]

/-- The counters and records that chapters tie to a release (R111, R114, R219, R280, R324). -/
def clearAtRelease (s : State) : State :=
  let s1 := (s.zeroRegs .plan [0x6C, 0x70, 0x74]).zeroRegs .fab [0xB4, 0xB8, 0xBC]
  let s2 := s1.zeroRegs .hold ((List.range 8).flatMap (fun k => [0x80 + 4 * k, 0xA0 + 8 * k, 0xA4 + 8 * k]) ++ [0xE0])
  (List.range s.fuses.panels).foldl clearPanelRecords s2

/-- Every enabled core of the package. -/
def allCores (s : State) : List Nat :=
  (List.range s.fuses.panels).flatMap fun p => ((List.range 288).filter (slotEnabled s p)).map (coreKey p)

/-- STEP := PLAN_STEP_INIT and an empty input digest chain on every core (R88, R219). -/
def coresAtRelease (s : State) : State :=
  let step : DWord := BitVec.ofNat 64 (s.reg64 .plan 0x60)
  (allCores s).foldl (fun s k => s.modCore k fun c => { c with step := step, digestH := List.replicate 32 0, digestN := 0 }) s

/-- The launches that were armed while CAST_STATE was ARRIVED are checked against the job base (R69, R281). -/
def checkArmed (s : State) : State :=
  s.cores.foldl (fun s e => match (s.core e.1).stream.launch with
    | some l =>
      if !l.unchecked then s
      else if l.start < s.ptc.toNat + 64 then launchLate s e.1 l.chart s.ptc.toNat
      else s.modStream e.1 fun st => { st with launch := some { l with unchecked := false } }
    | none => s) s

/-- PWR_LEVEL.NEXT (R409, R410): the level that the limit gives, 1 to 8; 8 in the grades without a budget. -/
def nextLevel (s : State) : Nat :=
  if s.fuses.panels < 8 then 8 else Nat.max 1 (Nat.min 8 (8 * (s.regN .gov 0x40 % 2 ^ 13 - 2590) / 2210))

/-- VARIANT_STALE and LEVEL_STALE (R450). -/
def staleChecks (s : State) : State :=
  if !s.boot.loaded then s
  else
    let j := s.regN .boot 0x5C
    if j % 4 ≠ s.clk.set then raiseErr s .boot 2
    else if bits j 8 4 ≠ s.level then raiseErr s .boot 3 else s

/-- A PTC value of something under way when PTC takes a new value: as far ahead as before, or past. -/
def rebased (now base t : Nat) : Nat := base + (t - now)

/-- The stitch array's times after PTC has taken a new value. -/
def SaTimes.rebase (f : Nat → Nat) (x : SaTimes) : SaTimes :=
  ⟨f x.fill, f x.array, f x.drain, f x.load0, f x.load1, f x.mul0, f x.mul1⟩

/-- The datapaths and the beats under way of a core after PTC has taken a new value: what runs takes as many ticks as before (R91, R166). -/
def Core.rebase (now base : Nat) (c : Core) : Core :=
  let f := rebased now base
  let land (l : Landing) : Landing := { l with ptc := f l.ptc }
  { c with
    engFree := (c.engFree.map fun e => (e.1, f e.2)).filter fun e => e.2 != 0
    port := (c.port.filter fun e => decide (now < e.2.2)).map fun e => (e.1, f e.2.1, f e.2.2)
    sa := c.sa.rebase f
    landings := c.landings.map land
    collBuf := c.collBuf.map land }

/-- The release tick of a package that is not stopped. -/
def releaseNow (s : State) (base : DWord) : State :=
  let s1 := coresAtRelease (clearAtRelease { s with cores := s.cores.map fun e => (e.1, e.2.rebase s.ptc.toNat base.toNat), ptc := base, castRelease := none, castSt := .released, jobLive := true
                                                    flt := { s.flt with jobBase := base, istOpen := [] } })
  let s2 := checkArmed { s1.setReg64 .cast 0x58 s.time.toNat with level := nextLevel s1, windows := [] }
  let s3 := servingRelease s2
  (recorders s).foldl (fun s r => trigger s r 4 0 0 0) (staleChecks (raiseIrq s3 .cast 1))

/-- LOCAL_RELEASE (R280). -/
def localRelease (s : State) : State :=
  match s.castRelease with
  | none => s
  | some p =>
    if s.wall < p.due then s
    else if s.flt.stopped then
      let s1 := { s with castRelease := none, castSt := .failed }
      s1.setNode p.node { s1.node p.node with st := .failed }
    else releaseNow s p.base

/-! ## Bind-off (R285, R286) -/

/-- Step 1: every stream is IDLE and drained, or FAULTED. -/
def bindQuiesced (s : State) : Bool :=
  s.cores.all fun e => e.2.stream.st == .faulted || (e.2.stream.st == .idle && drained e.2)

/-- Step 1 of a bind-off ends. -/
def bindStep1 (s : State) : State :=
  match s.bind with
  | some b => if b.quietFrom.isNone && bindQuiesced s then { s with bind := some { b with quietFrom := some s.time.toNat } } else s
  | none => s

/-- BIND_OFF_START. -/
def bindOffStart (lot : Nat) (s : State) : State :=
  if s.bind.isSome then s.countNoEffect .cast
  else bindStep1 { s.setRegN .cast 0x68 (lot % 2 ^ 16) with bind := some { lot := lot % 2 ^ 16 } }

/-- A transmit queue still holds a packet of the lot. -/
def queuesHold (s : State) (lot : Nat) : Bool :=
  s.links.any fun e => e.2.dataQ.any (·.lot == lot) || e.2.ctl0.any (·.lot == lot) || e.2.ctl1.any (·.lot == lot)

/-- The ports drop a lot whose removal waits (R286, R320). -/
def dropPending (s : State) (lot : Nat) : State :=
  (List.range (4 * s.fuses.panels)).foldl (fun s l => (List.range 4).foldl (fun s e =>
    let v := s.regN (plyBlk l) (0x60 + 4 * e)
    if bitOf v 30 && v % 2 ^ 16 == lot then s.setRegN (plyBlk l) (0x60 + 4 * e) lot else s) s) s

/-- A node of the lot is disabled. -/
def disableNode (lot : Nat) (s : State) (n : Nat) : State :=
  if nodeLot s n = lot then
    (s.setNode n {}).setRegN .cast (0x100 + 16 * n) (nodeCfg s n % 2 ^ 31)
  else s

/-- BIND_OFF_COMPLETE: steps 3 to 5, and a deferred arrival (R277). -/
def bindOffComplete (s0 : State) : State :=
  let s := bindStep1 s0
  match s.bind with
  | none => s
  | some b =>
    match b.quietFrom with
    | none => s
    | some t =>
      if s.time.toNat - t < s.regN .cast 0x6C % 2 ^ 16 * 1000 || queuesHold s b.lot then s
      else
        let s1 := dropPending (clearCounters ((List.range 64).foldl (disableNode b.lot) s)) b.lot
        let s2 := raiseIrq { s1 with bind := none, jobLive := false, boot := { s1.boot with loaded := false, loading := false }
                                     flt := { s1.flt with needBind := s1.flt.needBind && (jobLot s).any (· != b.lot) } } .cast 0
        let s3 := servingUnbind s2
        if s3.castDeferred then localArrive s3 else s3

/-! ## Writes of row counters (R272, R288) -/

/-- A write of ROW_VALUE: refused in inspect mode; in release mode `f` takes the core and the number of the selected counter. -/
def onSelected (p : Nat) (f : Nat → Nat → State → State) (s : State) : State :=
  let b := Blk.row p
  let sel := s.regN b 0x44
  let core := bits sel 12 9
  if s.regN b 0x40 % 2 = 0 then (raiseErr s b 2).countNoEffect b
  else if bitOf sel 31 then f (coreKey p 0) (2 ^ 12 + sel % 2 ^ 12) s
  else if slotEnabled s p core && decide (sel % 2 ^ 12 < 64) then f (coreKey p core) (sel % 2 ^ 12) s
  else s.countNoEffect b

/-- ROW_VALUE_WRITE: a SET of the selected counter by the host, applied in the tick after the write (R272). -/
def rowValueWrite (p : Nat) (w : Word) (s : State) : State :=
  onSelected p (fun k ctr s => { s with rowSets := s.rowSets ++ [(s.wall, k, ctr, w)] }) s

/-- CAST_CTRL_ARRIVE. -/
def execCastCtrlArrive (s : State) := actBy 0 s castCtrlArrive
/-- CAST_ARRIVE. -/
def execCastArrive (src : CastSrc) (lot node slot : Nat) (s : State) := act s (castArrive src lot node slot)
/-- CAST_RELEASE. -/
def execCastRelease (src : CastSrc) (lot node remaining : Nat) (base : DWord) (replayed : Bool) (s : State) :=
  act s (castRelease src lot node remaining base replayed)
/-- LOCAL_RELEASE. -/
def execLocalRelease (s : State) := act s localRelease
/-- CASTON_NODE_TIMEOUT. -/
def execCastonNodeTimeout (n : Nat) (s : State) := act s (castonNodeTimeout n)
/-- CAST_ABORT. -/
def execCastAbort (src : CastSrc) (lot node : Nat) (s : State) := act s (castAbort src lot node)
/-- NOTICE. -/
def execNotice (src : CastSrc) (lot : Nat) (b : NoticeBody) (s : State) := act s (notice src lot b)
/-- CAST_REARM. -/
def execCastRearm (s : State) := actBy 0 s castRearm
/-- BIND_OFF_START. -/
def execBindOffStart (lot : Nat) (s : State) := actBy 0 s (bindOffStart lot)
/-- BIND_OFF_COMPLETE. -/
def execBindOffComplete (s : State) := act s bindOffComplete
/-- ROW_VALUE_WRITE. -/
def execRowValueWrite (p : Nat) (w : Word) (s : State) := actBy 0 s fun s => onBlock s (.row p) (rowValueWrite p w)

end Sys2Proof.Machine
end

