-- ==== Sys2Proof/Machine/Crypto.lean ====
section
/-! DEFINITION. The signature checks of R424, from the standards that the rule names: SHA-2 (FIPS 180-4), RSASSA-PSS (RFC 8017) and
SLH-DSA-SHA2-192s (FIPS 205). PRESUMED (log entry 12): the manual names these and does not give their steps. -/

namespace Sys2Proof.Machine

/-! ## SHA-2 -/

/-- The round constants of SHA-512; those of SHA-256 are the upper halves of the first 64. -/
def sha2K : List Nat :=
  [0x428A2F98D728AE22, 0x7137449123EF65CD, 0xB5C0FBCFEC4D3B2F, 0xE9B5DBA58189DBBC, 0x3956C25BF348B538,
   0x59F111F1B605D019, 0x923F82A4AF194F9B, 0xAB1C5ED5DA6D8118, 0xD807AA98A3030242, 0x12835B0145706FBE,
   0x243185BE4EE4B28C, 0x550C7DC3D5FFB4E2, 0x72BE5D74F27B896F, 0x80DEB1FE3B1696B1, 0x9BDC06A725C71235,
   0xC19BF174CF692694, 0xE49B69C19EF14AD2, 0xEFBE4786384F25E3, 0x0FC19DC68B8CD5B5, 0x240CA1CC77AC9C65]
  ++ [0x2DE92C6F592B0275, 0x4A7484AA6EA6E483, 0x5CB0A9DCBD41FBD4, 0x76F988DA831153B5, 0x983E5152EE66DFAB,
   0xA831C66D2DB43210, 0xB00327C898FB213F, 0xBF597FC7BEEF0EE4, 0xC6E00BF33DA88FC2, 0xD5A79147930AA725,
   0x06CA6351E003826F, 0x142929670A0E6E70, 0x27B70A8546D22FFC, 0x2E1B21385C26C926, 0x4D2C6DFC5AC42AED,
   0x53380D139D95B3DF, 0x650A73548BAF63DE, 0x766A0ABB3C77B2A8, 0x81C2C92E47EDAEE6, 0x92722C851482353B]
  ++ [0xA2BFE8A14CF10364, 0xA81A664BBC423001, 0xC24B8B70D0F89791, 0xC76C51A30654BE30, 0xD192E819D6EF5218,
   0xD69906245565A910, 0xF40E35855771202A, 0x106AA07032BBD1B8, 0x19A4C116B8D2D0C8, 0x1E376C085141AB53,
   0x2748774CDF8EEB99, 0x34B0BCB5E19B48A8, 0x391C0CB3C5C95A63, 0x4ED8AA4AE3418ACB, 0x5B9CCA4F7763E373,
   0x682E6FF3D6B2B8A3, 0x748F82EE5DEFB2FC, 0x78A5636F43172F60, 0x84C87814A1F0AB72, 0x8CC702081A6439EC]
  ++ [0x90BEFFFA23631E28, 0xA4506CEBDE82BDE9, 0xBEF9A3F7B2C67915, 0xC67178F2E372532B, 0xCA273ECEEA26619C,
   0xD186B8C721C0C207, 0xEADA7DD6CDE0EB1E, 0xF57D4F7FEE6ED178, 0x06F067AA72176FBA, 0x0A637DC5A2C898A6,
   0x113F9804BEF90DAE, 0x1B710B35131C471B, 0x28DB77F523047D84, 0x32CAAB7B40C72493, 0x3C9EBE0A15C9BEBC,
   0x431D67C49C100D4C, 0x4CC5D4BECB3E42B6, 0x597F299CFC657E2A, 0x5FCB6FAB3AD6FAEC, 0x6C44198C4A475817]

/-- The initial hash of SHA-512; that of SHA-256 is the upper halves. -/
def sha512Init : List Nat :=
  [0x6A09E667F3BCC908, 0xBB67AE8584CAA73B, 0x3C6EF372FE94F82B, 0xA54FF53A5F1D36F1, 0x510E527FADE682D1,
   0x9B05688C2B3E6C1F, 0x1F83D9ABFB41BD6B, 0x5BE0CD19137E2179]

/-- The initial hash of SHA-384. -/
def sha384Init : List Nat :=
  [0xCBBB9D5DC1059ED8, 0x629A292A367CD507, 0x9159015A3070DD17, 0x152FECD8F70E5939, 0x67332667FFC00B31,
   0x8EB44A8768581511, 0xDB0C2E0D64F98FA7, 0x47B5481DBEFA4FA4]

/-- A SHA-2 function on words of w bits: its rounds, the rotations of the two round functions, and the two rotations and the shift of the
two schedule functions. -/
structure Sha2 (w : Nat) where
  rounds : Nat
  a : Nat × Nat × Nat
  e : Nat × Nat × Nat
  s0 : Nat × Nat × Nat
  s1 : Nat × Nat × Nat
  k : List (BitVec w)

/-- SHA-512 and SHA-384. -/
def sha2Long : Sha2 64 := ⟨80, (28, 34, 39), (14, 18, 41), (1, 8, 7), (19, 61, 6), sha2K.map (BitVec.ofNat 64)⟩

/-- SHA-256. -/
def sha2Short : Sha2 32 :=
  ⟨64, (2, 13, 22), (6, 11, 25), (7, 18, 3), (17, 19, 10), (sha2K.take 64).map fun k => BitVec.ofNat 32 (k / 2 ^ 32)⟩

/-- Three rotations, combined. -/
def rot3 {w : Nat} (r : Nat × Nat × Nat) (x : BitVec w) : BitVec w := x.rotateRight r.1 ^^^ x.rotateRight r.2.1 ^^^ x.rotateRight r.2.2

/-- Two rotations and a shift, combined. -/
def rotShift {w : Nat} (r : Nat × Nat × Nat) (x : BitVec w) : BitVec w := x.rotateRight r.1 ^^^ x.rotateRight r.2.1 ^^^ (x >>> r.2.2)

/-- One round: the working variables, and the next 16 words of the schedule. -/
def sha2Round {w : Nat} (p : Sha2 w) (st : List (BitVec w) × List (BitVec w)) (k : BitVec w) : List (BitVec w) × List (BitVec w) :=
  match st.1 with
  | [a, b, c, d, e, f, g, h] =>
    let x (i : Nat) : BitVec w := st.2.getD i 0
    let t1 := h + rot3 p.e e + ((e &&& f) ^^^ (~~~e &&& g)) + k + x 0
    let t2 := rot3 p.a a + ((a &&& b) ^^^ (a &&& c) ^^^ (b &&& c))
    ([t1 + t2, a, b, c, d + t1, e, f, g], st.2.drop 1 ++ [rotShift p.s1 (x 14) + x 9 + rotShift p.s0 (x 1) + x 0])
  | _ => st

/-- A big-endian number. -/
def beNat (bs : List Byte) : Nat := bs.foldl (fun n b => 256 * n + b.toNat) 0

/-- The n big-endian bytes of a number. -/
def beBytes (n v : Nat) : List Byte := (leBytes n v).reverse

/-- One block of 16 words. -/
def sha2Block {w : Nat} (p : Sha2 w) (h : List (BitVec w)) (block : List Byte) : List (BitVec w) :=
  let words := (List.range 16).map fun i => BitVec.ofNat w (beNat ((block.drop (w / 8 * i)).take (w / 8)))
  List.zipWith (· + ·) h ((p.k.take p.rounds).foldl (sha2Round p) (h, words)).1

/-- Whole blocks of a padded message, `n` of them. -/
def sha2Blocks {w : Nat} (p : Sha2 w) : Nat → List (BitVec w) → List Byte → List (BitVec w)
  | 0, h, _ => h
  | n + 1, h, bs => sha2Blocks p n (sha2Block p h (bs.take (2 * w))) (bs.drop (2 * w))

/-- A hash from an initial value, `n` bytes of it. -/
def sha2 {w : Nat} (p : Sha2 w) (init : List Nat) (n : Nat) (msg : List Byte) : List Byte :=
  let block := 2 * w
  let used := msg.length + 1 + w / 4
  let padded := msg ++ [0x80] ++ List.replicate ((block - used % block) % block) 0 ++ beBytes (w / 4) (8 * msg.length)
  ((sha2Blocks p (padded.length / block) (init.map (BitVec.ofNat w)) padded).flatMap fun x => beBytes (w / 8) x.toNat).take n

/-- SHA-384. -/
def sha384 (msg : List Byte) : List Byte := sha2 sha2Long sha384Init 48 msg
/-- SHA-512. -/
def sha512 (msg : List Byte) : List Byte := sha2 sha2Long sha512Init 64 msg
/-- SHA-256. -/
def sha256 (msg : List Byte) : List Byte := sha2 sha2Short (sha512Init.map (· / 2 ^ 32)) 32 msg

/-- MGF1 with a hash of `hLen` bytes: `n` bytes. -/
def mgf1 (hash : List Byte → List Byte) (hLen : Nat) (seed : List Byte) (n : Nat) : List Byte :=
  ((List.range (ceilDiv n hLen)).flatMap fun i => hash (seed ++ beBytes 4 i)).take n

/-! ## RSASSA-PSS (RFC 8017, 8.1.2 and 9.1.2) -/

/-- b to the power of e modulo m, over the lowest `n` bits of e. -/
def powMod (m : Nat) : Nat → Nat → Nat → Nat
  | 0, _, _ => 1 % m
  | n + 1, b, e => (if e % 2 = 1 then b else 1) * powMod m n (b * b % m) (e / 2) % m

/-- RSASSA-PSS with SHA-384, MGF1 with SHA-384 and a salt of 48 bytes, under a 3,072-bit modulus: modulus and signature big-endian, the
exponent a u32. -/
def rsaVerify (modulus exponent signature signed : List Byte) : Bool :=
  let n := beNat modulus
  let sig := beNat signature
  let em := beBytes 384 (powMod n 32 sig (leNat exponent))
  let h := (em.drop 335).take 48
  let db := List.zipWith (· ^^^ ·) (em.take 335) (mgf1 sha384 48 h 335)
  let clear := match db with
    | b :: bs => (b &&& 0x7F) :: bs
    | [] => []
  decide (sig < n) && em.getD 383 0 == 0xBC && decide ((em.getD 0 0).toNat < 128) && (clear.take 286).all (· == 0) && clear.getD 286 0 == 1
    && sha384 (List.replicate 8 0 ++ sha384 signed ++ clear.drop 287) == h

/-! ## SLH-DSA-SHA2-192s (FIPS 205): n = 24, h = 63, d = 7, h' = 9, a = 14, k = 17, w = 16 -/

/-- An address (FIPS 205, 4.2 and 11.2), with its last three words. -/
structure SlhAdrs where
  layer : Nat := 0
  tree : Nat := 0
  typ : Nat := 0
  w1 : Nat := 0
  w2 : Nat := 0
  w3 : Nat := 0

/-- The 22 bytes of a compressed address. -/
def SlhAdrs.bytes (a : SlhAdrs) : List Byte :=
  beBytes 1 a.layer ++ beBytes 8 a.tree ++ beBytes 1 a.typ ++ beBytes 4 a.w1 ++ beBytes 4 a.w2 ++ beBytes 4 a.w3

/-- F: SHA-256, truncated. -/
def slhF (seed : List Byte) (a : SlhAdrs) (m : List Byte) : List Byte := (sha256 (seed ++ List.replicate 40 0 ++ a.bytes ++ m)).take 24

/-- H and T: SHA-512, truncated. -/
def slhT (seed : List Byte) (a : SlhAdrs) (m : List Byte) : List Byte := (sha512 (seed ++ List.replicate 104 0 ++ a.bytes ++ m)).take 24

/-- The digits of a byte string in base 2^b, `n` of them (Algorithm 4). -/
def base2b (bs : List Byte) (b n : Nat) : List Nat :=
  let total := 8 * ceilDiv (b * n) 8
  let v := beNat (bs.take (total / 8))
  (List.range n).map fun i => bits v (total - b * (i + 1)) b

/-- `s` steps of a chain from its place i (Algorithm 5). -/
def slhChain (seed : List Byte) (a : SlhAdrs) : Nat → Nat → List Byte → List Byte
  | 0, _, x => x
  | s + 1, i, x => slhChain seed a s (i + 1) (slhF seed { a with w3 := i } x)

/-- The n-byte element i of a list of them. -/
def slhPart (bs : List Byte) (i : Nat) : List Byte := (bs.drop (24 * i)).take 24

/-- A WOTS+ public key from a signature (Algorithm 8). -/
def wotsPk (sig m seed : List Byte) (a : SlhAdrs) : List Byte :=
  let msg := base2b m 4 48
  let csum := (msg.map fun d => 15 - d).sum * 16
  let digits := msg ++ base2b (beBytes 2 csum) 4 3
  slhT seed { a with typ := 1, w2 := 0, w3 := 0 }
    (digits.zipIdx.flatMap fun e => slhChain seed { a with w2 := e.2 } (15 - e.1) e.1 (slhPart sig e.2))

/-- Up a Merkle tree from node `x` with number `ix` at a height: the siblings in `auth`, one per level. -/
def slhClimb (seed : List Byte) (a : SlhAdrs) : List (List Byte) → Nat → Nat → List Byte → List Byte
  | [], _, _, x => x
  | y :: ys, height, ix, x =>
    let up := { a with w2 := height + 1, w3 := ix / 2 }
    slhClimb seed a ys (height + 1) (ix / 2) (slhT seed up (if ix % 2 = 0 then x ++ y else y ++ x))

/-- An XMSS public key from a signature (Algorithm 11). -/
def xmssPk (ix : Nat) (sig m seed : List Byte) (a : SlhAdrs) : List Byte :=
  slhClimb seed { a with typ := 2, w1 := 0 } ((List.range 9).map fun j => slhPart sig (51 + j)) 0 ix
    (wotsPk sig m seed { a with typ := 0, w1 := ix, w2 := 0, w3 := 0 })

/-- The hypertree: layers j on, `n` of them (Algorithm 13). -/
def slhLayers (seed sig : List Byte) : Nat → Nat → Nat → Nat → List Byte → List Byte
  | 0, _, _, _, x => x
  | n + 1, j, tree, leaf, x =>
    slhLayers seed sig n (j + 1) (tree / 512) (tree % 512) (xmssPk leaf (sig.drop (24 * 60 * j)) x seed { layer := j, tree := tree })

/-- A FORS public key from a signature (Algorithm 17). -/
def forsPk (sig md seed : List Byte) (tree leaf : Nat) : List Byte :=
  let a : SlhAdrs := { tree := tree, typ := 3, w1 := leaf }
  slhT seed { a with typ := 4 } ((base2b md 14 17).zipIdx.flatMap fun e =>
    let part := sig.drop (24 * 15 * e.2)
    let ix := 2 ^ 14 * e.2 + e.1
    slhClimb seed a ((List.range 14).map fun j => slhPart part (j + 1)) 0 ix (slhF seed { a with w2 := 0, w3 := ix } (part.take 24)))

/-- SLH-DSA-SHA2-192s in its pure form with an empty context string (Algorithms 20 and 24). -/
def slhVerify (key signature signed : List Byte) : Bool :=
  let seed := key.take 24
  let root := key.drop 24
  let r := signature.take 24
  let digest := mgf1 sha512 64 (r ++ seed ++ sha512 (r ++ seed ++ root ++ [0, 0] ++ signed)) 39
  let tree := beNat ((digest.drop 30).take 7) % 2 ^ 54
  let leaf := beNat ((digest.drop 37).take 2) % 512
  let fors := forsPk (signature.drop 24) (digest.take 30) seed tree leaf
  signature.length == 16224 && slhLayers seed (signature.drop (24 * 256)) 7 0 tree leaf fors == root

end Sys2Proof.Machine
end

