-- ==== Sys2Proof/Machine/Serving.lean ====
section
/-! DEFINITION. Serving requests: doorbells, submission entries and their admission, queue pairs, prefixes and motifs, and completion
posting (R327 to R341, R349 to R353, R358, R366). -/

namespace Sys2Proof.Machine

/-! ## Doorbells (R329, R330) -/

/-- A doorbell write waits for firmware to read it (R383); what it says counts from its arrival on (R331). -/
def rung (s : State) : State := s.modSrv fun r => { r with unread := r.unread + 1 }

/-- Firmware has read every doorbell write and seen every reset that waited for it (log entry 147). -/
def firmwareReads (s : State) : State := s.modSrv fun r => { r with unread := 0, flrWaits := false }

/-- SQ_TAIL. -/
def sqTail (q v : Nat) (s0 : State) : State :=
  let s := rung s0
  match s.qp q with
  | none => if s.srv.badQps.contains q then s else qpError s q 4
  | some x =>
    if x.error then s
    else if 2 ^ x.s ≤ v then qpError s q 1
    else
      let n := (v + 2 ^ x.s - x.sqTail) % 2 ^ x.s
      s.setQp q (some { x with sqTail := v, tSubmit := x.tSubmit ++ List.replicate n s.time.toNat })

/-- CQ_HEAD. -/
def cqHead (q v : Nat) (s0 : State) : State :=
  let s := rung s0
  match s.qp q with
  | none => if s.srv.badQps.contains q then s else qpError s q 4
  | some x =>
    if x.error then s
    else if 2 ^ x.c ≤ v then qpError s q 2
    else s.setQp q (some { x with cqHead := v, irqSent := false })

/-! ## Submission entries (R331, R332) -/

/-- A little-endian field of an entry. -/
def ent (e : List Byte) (off n : Nat) : Nat := leNat ((e.drop off).take n)

/-- Every byte outside the named (offset, length) fields, OPC and CID is 0. -/
def zeroElse (e : List Byte) (fields : List (Nat × Nat)) : Bool :=
  ((List.range e.length).zip e).all fun (i, b) =>
    b == 0 || ((0, 1) :: (4, 4) :: fields).any fun f => decide (f.1 ≤ i) && decide (i < f.1 + f.2)

/-- A queue pair has new entries that firmware reads. -/
def Qp.waits (x : Qp) : Bool := x.sqHead != x.sqTail && !x.error && x.deleting.isNone

/-- The queue pair that firmware visits (R331): up to 16 entries of one, then the next in ascending number. -/
def visitNext (s : State) : Option Nat :=
  let qs := s.srv.qps.filterMap fun e => match e.2 with
    | some x => if x.waits then some e.1 else none
    | none => none
  let (cur, n) := s.srv.visit
  if qs.contains cur && decide (n < 16) then some cur
  else match qs.find? fun q => decide (cur < q) with
    | some q => some q
    | none => qs.head?

/-- What a taken entry is: its queue pair and the function that owns it, its bytes, the head after it, and T_SUBMIT. -/
structure Taken where
  q : Nat
  fn : Nat
  qp : Qp
  e : List Byte
  sqhd : Nat
  t : Nat
deriving DecidableEq, Repr

/-- CID of an entry. -/
def Taken.cid (x : Taken) : Nat := ent x.e 4 4

/-- Firmware takes the next entry of queue pair q when it visits it and its OPC is one that this command takes; a read of the ring that
fails on PCI Express is an error of the queue pair (R330). -/
def takeEntry (q : Nat) (ringOk : Bool) (mine : Nat → Bool) (f : Taken → State → State) (s0 : State) : State :=
  let s := firmwareReads s0
  match s.qp q with
  | none => s
  | some x =>
    if visitNext s != some q || s.boot.stage != .ready then s
    else if !ringOk || !hostReach s (qpOwner s q) then qpError s q 3
    else
      let e := hostGet s (qpOwner s q) (x.sq + 64 * x.sqHead) 64
      if !mine (ent e 0 1) then s
      else
        let head := (x.sqHead + 1) % 2 ^ x.s
        let x1 : Qp := { x with sqHead := head, tSubmit := x.tSubmit.drop 1 }
        let n := if s.srv.visit.1 = q ∧ s.srv.visit.2 < 16 then s.srv.visit.2 + 1 else 1
        f ⟨q, qpOwner s q, x1, e, head, x.tSubmit.headD s.time.toNat⟩ ((s.setQp q (some x1)).modSrv fun r => { r with visit := (q, n) })

/-- Complete a taken entry; a refusal is counted (R334, R335). TTFT of a FORECAST is the TIME since it was submitted (R333). -/
def answer (x : Taken) (status : Nat) (result : Nat := 0) (s : State) : State :=
  let s1 := if 1 ≤ status ∧ status ≤ 0xF then s.incReg .srv 0x58 else s
  complete s1 x.q { cid := x.cid, status := status, sqhd := x.sqhd, result := result
                    ttft := if ent x.e 0 1 = 4 then Nat.min (s.time.toNat - x.t) 0xFFFFFFFF else 0 }

/-- The first failed check of a list of (condition that must hold, status). -/
def firstFail : List (Bool × Nat) → Option Nat
  | [] => none
  | (true, _) :: l => firstFail l
  | (false, st) :: _ => some st

/-! ## GENERATE (R332, R335, R349) -/

/-- A finite FP32 that is not negative. -/
def tempOk (v : Nat) : Bool := bits v 23 8 != 255 && (!bitOf v 31 || v % 2 ^ 31 == 0)

/-- The fields of a GENERATE are in their ranges. -/
def generateFields (p : SrvParams) (e : List Byte) : Bool :=
  zeroElse e [(8, 8), (16, 4), (20, 4), (24, 8), (32, 8), (40, 4), (44, 4), (48, 2), (50, 2), (52, 4)]
  && decide (ent e 20 4 ≤ 1048575) && (ent e 20 4 != 0 || ent e 8 8 != 0) && ent e 24 8 % 64 == 0 && ent e 32 8 % 64 == 0
  && decide (1 ≤ ent e 40 4) && decide (ent e 40 4 ≤ 65535) && tempOk (ent e 44 4)
  && (ent e 44 4 % 2 ^ 31 == 0 || (decide (1 ≤ ent e 48 2) && decide (ent e 48 2 ≤ p.kMax)))

/-- What belongs to the physical function, or to the function itself, can be used (R338, R340). -/
def mayUse (owner fn : Nat) : Bool := owner == 0 || owner == fn

/-- The effective draft length (R349). -/
def draftOf (p : SrvParams) (x : Qp) (motif : Nat) : Nat := Nat.min x.draftMax (Nat.min p.draftMax (Config.motifDraftMax motif))

/-- Spans that a request can reach. -/
def spansOf (p : SrvParams) (total : Nat) : Nat := ceilDiv total p.tpp

/-- The pools that a request may use: its prefix's, or every one. -/
def eligible (s : State) (pre : Option Nat) : List (Nat × Pool) :=
  match pre with
  | some i => [((s.prefixAt i).pool, s.pool (s.prefixAt i).pool)]
  | none => s.srv.pools

/-- The eligible pool with the most unreserved pages, the lowest number on a tie, when it can reserve n. -/
def choosePool (s : State) (pre : Option Nat) (n : Nat) : Option Nat :=
  match minOn? (fun e => (2 ^ 32 - (e.2.pages - e.2.reserved)) * 1024 + e.1) (eligible s pre) with
  | some e => if n ≤ e.2.pages - e.2.reserved then some e.1 else none
  | none => none

/-- The largest page count among the eligible pools. -/
def largestPool (s : State) (pre : Option Nat) : Nat := (eligible s pre).foldl (fun n e => Nat.max n e.2.pages) 0

/-- The contexts of a function that are not FREE. -/
def ctxsOfFn (s : State) (fn : Nat) : Nat := ((liveCtxs s).filter fun e => qpOwner s e.2.qp == fn).length

/-- The first-token deadline of a request (R352). -/
def firstDeadline (x : Qp) (t : Nat) : Option Nat := if x.ttft = 0 then none else some (t + x.ttft * 1000)

/-- The projected first token passes the deadline (R335). -/
def projectedLate (s : State) (p : SrvParams) (x : Qp) (t n : Nat) : Bool :=
  match firstDeadline x t with
  | none => false
  | some d =>
    let ahead := ((liveCtxs s).filter fun e => match e.2.deadline with
      | some y => decide (y ≤ d)
      | none => false).map (fun e => stagedOf s e.2)
    let work := ahead.sum + n
    decide (d < t + (if p.prefillRate = 0 then Config.projectionAtZeroRate work else ceilDiv (work * 1000000) p.prefillRate))

/-- Checks 6 to 10 of R335 for n staged tokens. -/
def loadChecks (s : State) (x : Taken) (n : Nat) : List (Bool × Nat) :=
  let fn := x.fn
  [(!s.regBit .srv 0x40 0, 7), (decide ((openOf s x.q).length < x.qp.maxOut), 3),
   (fn == 0 || decide (ctxsOfFn s fn < (vfOf s fn).ctxQuota), 4), (decide ((liveCtxs s).length < s.regN .srv 0x48), 1),
   (decide (qtok s + n ≤ s.regN .srv 0x4C), 2)]

/-- Check 12 of R335. -/
def lateCheck (s : State) (p : SrvParams) (x : Taken) (n : Nat) : Bool × Nat := (!x.qp.refuseLate || !projectedLate s p x.qp x.t n, 6)

/-- Pages that a request reserves (R343). -/
def reservedFor (p : SrvParams) (total shared : Nat) : Nat := 1 + p.pps * (spansOf p total - shared / p.tpp)

/-- Two byte ranges do not meet. -/
def apart (a n b m : Nat) : Bool := decide (a + n ≤ b) || decide (b + m ≤ a)

/-- The staged prompts: address and bytes. -/
def stagedRanges (s : State) : List (Nat × Nat) :=
  (liveCtxs s).filterMap fun e =>
    if e.2.open && !e.2.isForecast && e.2.st != .decode then some (e.2.promptAddr, 4 * (e.2.promptTotal - e.2.shared)) else none

/-- The lowest place of the prompt area that is free for n bytes; where the area has no such place in one piece, a place in it that the
manual does not give (log entry 23). -/
def placePrompt (s : State) (p : SrvParams) (n : Nat) : Nat :=
  let used := stagedRanges s
  let elsewhere := p.promptArea + 4 * (Config.promptPlace s.srv.picks % ((p.promptSize - n) / 4 + 1))
  (minOn? id ((p.promptArea :: used.map fun r => r.1 + r.2).filter fun a =>
    decide (p.promptArea ≤ a) && decide (a + n ≤ p.promptArea + p.promptSize) && used.all fun r => apart a n r.1 r.2)).getD elsewhere

/-- Write every entry of a page table: absent, but for the shared spans of a prefix (R342, R343). -/
def initTable (s : State) (pool ptPage : Nat) (shared : List (Nat × Nat)) : State :=
  let s1 := hbmPut s ((s.pool pool).addr + 65536 * ptPage) (List.replicate 65536 0xFF)
  shared.foldl (fun s e => tableEntryPut s pool ptPage e.1 e.2) s1

/-- Admit a context that prefills (R335, R343): it takes a context, its reservation and its table page, and stages its tokens. -/
def admitCtx (x : Taken) (pool place : Nat) (shared : List (Nat × Nat)) (tokens : List Byte) (base : Ctx) (s : State) : State :=
  match pickOf s ((liveCtxs s).map (·.1)) 2097152 with
  | none => answer x 1 0 s
  | some (c, s1) =>
    let y := s1.pool pool
    let (page, s2) := takePage (s1.setPool pool { y with reserved := y.reserved + base.reserved }) pool
    let rest := decide (base.promptTotal ≤ base.shared)
    let ctx : Ctx := { base with
      serial := s.srv.picks, pool := pool, ptPage := page, promptAddr := place, inToken := if rest then Config.firstToken c else 0
      st := if rest then .decode else .queued }
    hbmPut ((initTable s2 pool page shared).setCtx c ctx) place tokens

/-- An admitted GENERATE as a context, before its pool is known. -/
def generateCtx (p : SrvParams) (x : Taken) (shared total : Nat) : Ctx :=
  let e := x.e
  let draft := draftOf p x.qp (ent e 16 4)
  { st := .queued, draft := draft, qp := x.q, cid := x.cid, motif := ent e 16 4, prefixH := ent e 8 8, pool := 0, ptPage := 0, shared := shared
    promptTotal := total, committed := shared, inToken := 0, maxNew := ent e 40 4, tokens := 0
    reserved := reservedFor p (total + ent e 40 4 + draft) shared, temp := ent e 44 4, topk := ent e 48 2, topp := ent e 50 2, strm := ent e 52 4
    out := ent e 32 8, tSubmit := x.t, tFirst := 0, tLast := 0, deadline := firstDeadline x.qp x.t, maxGap := 0, promptAddr := 0
    promptLen := ent e 20 4, sqhd := x.sqhd }

/-- Checks 3 and 4 of R335: the prefix's slot and the motif, or the status. -/
def handleChecks (s : State) (x : Taken) : List (Bool × Nat) :=
  let h := ent x.e 8 8
  let m := ent x.e 16 4
  let pre := currentPrefix s h
  let fn := x.fn
  [(h == 0 || pre.isSome, 0x12), (h == 0 || mayUse (s.prefixAt (pre.getD 0)).fn fn, 0x19), (m == 0 || (currentMotif s m).isSome, 0x13),
   (m == 0 || mayUse (s.motif (m % 2 ^ 16)).fn fn, 0x19), (h == 0 || (s.prefixAt (pre.getD 0)).motif == m, 0x14)]

/-- The slot of the prefix that a GENERATE names, if any. -/
def namedPrefix (s : State) (x : Taken) : Option Nat := if ent x.e 8 8 = 0 then none else currentPrefix s (ent x.e 8 8)

/-- That prefix; one of no tokens when the GENERATE names none. -/
def prefixOf (s : State) (x : Taken) : Prefix := match namedPrefix s x with
  | some i => s.prefixAt i
  | none => {}

/-- The context that a GENERATE asks for. -/
def wantedCtx (p : SrvParams) (x : Taken) (s : State) : Ctx :=
  let px := prefixOf s x
  generateCtx p x px.sharedTokens (px.len + ent x.e 20 4)

/-- Where its tokens are staged. -/
def promptPlace (p : SrvParams) (x : Taken) (s : State) : Nat :=
  let c := wantedCtx p x s
  placePrompt s p (4 * (c.promptTotal - c.shared))

/-- The first check of R335 that a GENERATE fails. -/
def generateStatus (p : SrvParams) (x : Taken) (s : State) : Option Nat :=
  let pre := namedPrefix s x
  let n := ent x.e 20 4
  let c := wantedCtx p x s
  let need := spansOf p (c.promptTotal + c.maxNew + c.draft) * p.pps
  firstFail ([(ent x.e 0 1 == 1, 0x10), (s.srv.st == .ready, 0x22), (!p.forecasting, 0x10), (generateFields p x.e, 0x11)] ++ handleChecks s x
    ++ [(decide (need ≤ largestPool s pre - 1), 0x17)] ++ loadChecks s x n
    ++ [((choosePool s pre c.reserved).isSome, 5), lateCheck s p x n])

/-- GENERATE (R335). -/
def generateEntry (bufOk : Bool) (x : Taken) (s : State) : State :=
  match s.srv.params with
  | none => answer x (if ent x.e 0 1 = 1 then 0x22 else 0x10) 0 s
  | some p =>
    match generateStatus p x s with
    | some st => answer x st 0 s
    | none =>
      if !bufOk then answer x 0x16 0 s
      else
        let px := prefixOf s x
        let c := wantedCtx p x s
        let tokens := px.tail ++ hostGet s x.fn (ent x.e 24 8) (4 * ent x.e 20 4)
        admitCtx x ((choosePool s (namedPrefix s x) c.reserved).getD 0) (promptPlace p x s) px.pages tokens c s

/-! ## FORECAST (R335, R355) -/

/-- The first check of R335 that a FORECAST fails. -/
def forecastStatus (p : SrvParams) (x : Taken) (s : State) : Option Nat :=
  let e := x.e
  let n := ent e 12 4
  let m := p.models.getD (ent e 8 4) ⟨0, 0, 0, 0, 0, 0, 0⟩
  let bytes := n * m.inBytes
  let fields := zeroElse e [(8, 4), (12, 4), (16, 8), (24, 8)] && decide (1 ≤ n) && decide (n ≤ 1048575) && ent e 16 8 % 64 == 0 && ent e 24 8 % 64 == 0
  firstFail ([(s.srv.st == .ready, 0x22), (p.forecasting, 0x10), (fields, 0x11), (decide (ent e 8 4 < p.models.length), 0x15)]
    ++ loadChecks s x bytes ++ [lateCheck s p x bytes])

/-- An admitted FORECAST as a context. -/
def forecastCtx (x : Taken) : Ctx :=
  let e := x.e
  { st := .queued, isForecast := true, draft := 0, qp := x.q, cid := x.cid, motif := 0, prefixH := 0, pool := 0, ptPage := 0, shared := 0
    promptTotal := 0, committed := 0, inToken := 0, maxNew := 0, tokens := 0, reserved := 0, temp := 0, topk := 0, topp := 0, strm := 0
    out := ent e 24 8, tSubmit := x.t, tFirst := 0, tLast := 0, deadline := firstDeadline x.qp x.t, maxGap := 0, promptAddr := 0
    promptLen := 0, sqhd := x.sqhd, model := ent e 8 4, series := ent e 12 4, inAddr := ent e 16 8 }

/-- FORECAST. -/
def forecastEntry (x : Taken) (s : State) : State :=
  match s.srv.params with
  | none => answer x 0x22 0 s
  | some p =>
    match forecastStatus p x s with
    | some st => answer x st 0 s
    | none =>
      match pickOf s ((liveCtxs s).map (·.1)) 2097152 with
      | none => answer x 1 0 s
      | some (c, s1) => s1.setCtx c { forecastCtx x with serial := s.srv.picks }

/-! ## CANCEL and RIP_BACK (R350, R351) -/

/-- CANCEL. -/
def cancelEntry (x : Taken) (s : State) : State :=
  if !zeroElse x.e [(8, 4)] then answer x 0x11 0 s else take s { qp := x.q, cid := x.cid, sqhd := x.sqhd, act := .cancel (ent x.e 8 4) }

/-- RIP_BACK. -/
def ripBackEntry (x : Taken) (s : State) : State :=
  let e := x.e
  let tokenOk := match s.srv.params with
    | some p => decide (ent e 16 4 < p.vocab)
    | none => true
  let other := match s.srv.params with
    | some p => p.forecasting
    | none => false
  if other then answer x 0x10 0 s
  else if !(zeroElse e [(8, 4), (12, 4), (16, 4)] && tokenOk) then answer x 0x11 0 s
  else take s { qp := x.q, cid := x.cid, sqhd := x.sqhd, act := .ripBack (ent e 8 4) (ent e 12 4) (ent e 16 4) }

/-! ## Queue pairs (R327, R328, R332, R351, R358, R366) -/

/-- The command stands on an admin queue pair. -/
def onAdmin (s : State) (x : Taken) : Bool := x.q == adminQp s x.fn

/-- Queue pair numbers of the package. -/
def qpCount : Nat := 262144

/-- The queue pair number is one that CREATE_QP and DELETE_QP name: of the function, and not its admin queue pair. -/
def qpChecks (s : State) (x : Taken) (n : Nat) : List (Bool × Nat) :=
  [(decide (n < qpCount) && n != adminQp s (qpOwner s n), 0x15), (qpOwner s n == x.fn, 0x19)]

/-- The fields of a CREATE_QP are in their ranges. -/
def createQpFields (e : List Byte) : Bool :=
  let sz (i : Nat) : Bool := decide (4 ≤ ent e i 1) && decide (ent e i 1 ≤ 16)
  zeroElse e [(8, 4), (12, 1), (13, 1), (16, 8), (24, 8), (32, 4), (36, 4), (40, 2), (42, 1), (43, 1), (44, 2)] && sz 12 && sz 13
    && ent e 16 8 % 4096 == 0 && ent e 24 8 % 4096 == 0 && ent e 40 2 != 0 && decide (ent e 42 1 ≤ 8) && decide (ent e 43 1 < 4)

/-- The queue pair that a CREATE_QP asks for. -/
def wantedQp (e : List Byte) : Qp :=
  { s := ent e 12 1, c := ent e 13 1, sq := ent e 16 8, cq := ent e 24 8, ttft := ent e 32 4, tbt := ent e 36 4, maxOut := ent e 40 2
    draftMax := ent e 42 1, ien := bitOf (ent e 43 1) 0, refuseLate := bitOf (ent e 43 1) 1, streamEvery := ent e 44 2 }

/-- CREATE_QP. -/
def createQpEntry (x : Taken) (s : State) : State :=
  let n := ent x.e 8 4
  match firstFail ([(onAdmin s x, 0x10), (createQpFields x.e, 0x11)] ++ qpChecks s x n
      ++ [((s.qp n).isNone && !s.srv.badQps.contains n, 0x11)]) with
  | some st => answer x st 0 s
  | none => answer x 0 0 (s.setQp n (some (wantedQp x.e)))

/-- Start to delete a queue pair: its requests are cancelled, their completions posted, then `note` is completed (R351). A number in ERROR
that has no queue pair is free at once. -/
def startDelete (s : State) (n : Nat) (note : Option (Nat × Nat × Nat)) : State :=
  match s.qp n with
  | none =>
    let s1 := s.setBadQp n false
    (match note with
      | some (a, cid, sqhd) => complete s1 a { cid := cid, status := 0, sqhd := sqhd }
      | none => s1)
  | some y => take (s.setQp n (some { y with deleting := some note })) { qp := n, cid := 0, sqhd := 0, act := .endAll n false }

/-- DELETE_QP. -/
def deleteQpEntry (x : Taken) (s : State) : State :=
  let n := ent x.e 8 4
  match firstFail ([(onAdmin s x, 0x10), (zeroElse x.e [(8, 4)], 0x11)] ++ qpChecks s x n
      ++ [((match s.qp n with
        | some y => y.deleting.isNone
        | none => s.srv.badQps.contains n), 0x11)]) with
  | some st => answer x st 0 s
  | none => startDelete s n (some (x.q, x.cid, x.sqhd))

/-- The range of an assignment meets no other function's, nor queue pair 0. -/
def rangeFree (s : State) (v first count : Nat) : Bool :=
  decide (1 ≤ first) && decide (first + count ≤ qpCount)
  && s.srv.vfs.all fun e => e.1 == v || e.2.count == 0 || apart first count e.2.first e.2.count

/-- ASSIGN_QP (R327, R332, R365). -/
def assignQpEntry (x : Taken) (s : State) : State :=
  let e := x.e
  let v := ent e 8 4
  let first := ent e 12 4
  let count := ent e 16 4
  let fields := zeroElse e [(8, 4), (12, 4), (16, 4), (20, 4), (24, 4), (28, 4)] && decide (1 ≤ v) && decide (v ≤ 64) && decide (count ≤ 16384)
  match firstFail [(onAdmin s x && x.fn == 0, 0x10), (fields, 0x11), (count == 0 || rangeFree s v first count, 0x15)] with
  | some st => answer x st 0 s
  | none =>
    let a : VfAssign := { first := if count = 0 then 0 else first, count := count, ctxQuota := ent e 20 4, prefixQuota := ent e 24 4, motifQuota := ent e 28 4 }
    answer x 0 0 (s.modSrv fun r => { r with vfs := FMap.put {} r.vfs v a })

/-- A size that SLOG2 and CLOG2 take. -/
def aqLogOk (v : Nat) : Bool := decide (4 ≤ v) && decide (v ≤ 16)

/-- What a write of SRV_AQ_SIZE stores: SLOG2 and CLOG2 take a value of 4 to 16, or 0 when both are 0; a field with another value keeps its
old one (R12, R358), also where only one of the two is 0 (log entry 153). -/
def aqSizeStored (old sl cl : Nat) : Nat :=
  if sl = 0 ∧ cl = 0 then 0 else (if aqLogOk cl then cl else bits old 8 8) * 256 + (if aqLogOk sl then sl else old % 256)

/-- SRV_AQ_SIZE_WRITE: the admin queue pair of the physical function (vf = 0) or of a virtual function (R358, R366). -/
def srvAqSizeWrite (vf : Nat) (w : Word) (s : State) : State :=
  let b := if vf = 0 then Blk.srv else Blk.vfn vf
  let off := if vf = 0 then 0 else 0x10000
  let sl := w.toNat % 256
  let cl := bits w.toNat 8 8
  let q := adminQp s vf
  if 64 < vf then s
  else if vf ≠ 0 ∧ (vfOf s vf).count = 0 then s.countNoEffect b
  else
    let s1 := s.setRegN b (off + 0x78) (aqSizeStored (s.regN b (off + 0x78)) sl cl)
    if sl = 0 ∧ cl = 0 then startDelete s1 q none
    else if !(aqLogOk sl && aqLogOk cl) then s1.countNoEffect b
    else if (s.qp q).isSome || s.srv.badQps.contains q then s1.countNoEffect b
    else s1.setQp q (some { s := sl, c := cl, sq := s.reg64 b (off + 0x68), cq := s.reg64 b (off + 0x70) })

/-! ## Prefixes (R337 to R339) -/

/-- The slots in use: registered, or waiting for their prefill. -/
def prefixesInUse (s : State) : List Nat := (s.srv.prefixes.filter fun e => e.2.registered).map (·.1)

/-- The first check of R338 that a REGISTER_PREFIX fails. -/
def registerPrefixStatus (bufOk : Bool) (p : SrvParams) (x : Taken) (s : State) : Option Nat :=
  let e := x.e
  let fn := x.fn
  let m := ent e 16 4
  let n := ent e 20 4
  let fields := zeroElse e [(16, 4), (20, 4), (24, 8)] && decide (1 ≤ n) && decide (n ≤ 1048575) && ent e 24 8 % 64 == 0
  let mine := (s.srv.prefixes.filter fun y => y.2.registered && y.2.fn == fn).length
  let slot := pickOf s (prefixesInUse s) 1048576
  let pool := choosePool s none (reservedFor p n 0)
  firstFail [(onAdmin s x, 0x10), (s.srv.st == .ready, 0x22), (!p.forecasting, 0x10), (fields, 0x11),
    (m == 0 || (currentMotif s m).isSome, 0x13), (m == 0 || mayUse (s.motif (m % 2 ^ 16)).fn fn, 0x19),
    (decide (spansOf p n * p.pps ≤ largestPool s none - 1), 0x17), (fn == 0 || decide (mine < (vfOf s fn).prefixQuota), 4), (slot.isSome, 0x1B),
    (decide ((liveCtxs s).length < s.regN .srv 0x48), 1), (decide (qtok s + n ≤ s.regN .srv 0x4C), 2), (pool.isSome, 5),
    (bufOk, 0x16)]

/-- REGISTER_PREFIX. -/
def registerPrefixEntry (bufOk : Bool) (x : Taken) (s : State) : State :=
  match s.srv.params with
  | none => answer x (if onAdmin s x then 0x22 else 0x10) 0 s
  | some p =>
    let e := x.e
    let fn := x.fn
    let m := ent e 16 4
    let n := ent e 20 4
    let slot := pickOf s (prefixesInUse s) 1048576
    let place := placePrompt s p (4 * n)
    let res := reservedFor p n 0
    let pool := choosePool s none res
    match registerPrefixStatus bufOk p x s with
    | some st => answer x st 0 s
    | none => match slot with
      | none => s
      | some (i, s1) =>
        let tokens := hostGet s fn (ent e 24 8) (4 * n)
        let shared := p.tpp * (n / p.tpp)
        let gen := (s.prefixAt i).gen
        let s2 := s1.setPrefix i { gen := gen, registered := true, fn := fn, motif := m, len := n, sharedTokens := shared
                                   pool := pool.getD 0, tail := tokens.drop (4 * shared) }
        admitCtx x (pool.getD 0) place [] tokens
          { st := .queued, draft := 0, qp := x.q, cid := x.cid, motif := m, prefixH := 0, pool := 0, ptPage := 0, shared := 0, promptTotal := n
            committed := 0, inToken := 0, maxNew := 0, tokens := 0, reserved := res, temp := 0, topk := 0, topp := 0, strm := 0, out := 0
            tSubmit := x.t, tFirst := 0, tLast := 0, deadline := firstDeadline x.qp x.t, maxGap := 0, promptAddr := 0, promptLen := n
            isPrefix := some i, sqhd := x.sqhd } s2

/-- PREFIX_PREFILL_DONE (R338): the prefill of slot i has ended; its shared pages stay, the rest goes back. -/
def prefixPrefillDone (i : Nat) (s : State) : State :=
  match (liveCtxs s).find? fun e => e.2.open && e.2.isPrefix == some i && decide (e.2.committed = e.2.promptTotal), s.srv.params with
  | some (c, x), some p =>
    let y := s.prefixAt i
    let limit := p.pps * (y.sharedTokens / p.tpp)
    let keep := x.pages.filter fun e => decide (e.1 < limit)
    let drop := x.pages.filter fun e => decide (limit ≤ e.1)
    let s1 := unreserve (givePages s x.pool (drop.map (·.2) ++ [x.ptPage])) x.pool (x.reserved - keep.length)
    let s2 := (s1.setPrefix i { y with ready := true, pages := keep }).setCtx c { x with st := .ending, pages := [], reserved := 0 }
    complete s2 x.qp { cid := x.cid, status := 0, sqhd := x.sqhd, tokens := y.sharedTokens, result := handleOf i y.gen, ctx := some c }
  | _, _ => s

/-- RELEASE_PREFIX (R339). -/
def releasePrefixEntry (x : Taken) (s : State) : State :=
  let slot := currentPrefix s (ent x.e 8 8)
  match firstFail [(onAdmin s x, 0x10), (zeroElse x.e [(8, 8)], 0x11), (slot.isSome, 0x12), ((s.prefixAt (slot.getD 0)).fn == x.fn, 0x19)] with
  | some st => answer x st 0 s
  | none => answer x 0 0 (releaseSlot s (slot.getD 0))

/-! ## Motifs (R250, R251, R340, R341) -/

/-- The stash offset and panel of the base image: STR_STASH_BASE of virtual core 0. -/
def baseImage (s : State) : Nat := match physOf s 0 with
  | some k => s.reg64 (strBlk k) 0x68
  | none => 0

/-- Entries of the base image's tensor table. -/
def baseTensors (s : State) : Nat := Mem.nat s.stashMem (baseImage s + 12) 4

/-- The header and the targets of a motif set (R340). -/
def motifSetOk (s : State) (p : SrvParams) (a : Nat) : Bool :=
  let n := Mem.nat s.hbm (a + 12) 4
  a % 4096 == 0 && hbmRangeOk s a 4096 && Mem.nat s.hbm a 4 == 0x54574B4E && Mem.nat s.hbm (a + 4) 4 == 1 && Mem.nat s.hbm (a + 8) 4 == 1
  && Mem.nat s.hbm (a + 24) 8 == p.baseId && (List.range n).all fun i => decide (Mem.nat s.hbm (a + 4096 + 64 * i + 20) 4 < baseTensors s)

/-- The motif slots in use: registered, or releasing. -/
def motifsInUse (s : State) : List Nat := (s.srv.motifs.filter fun e => e.2.registered || e.2.releasing.isSome).map (·.1)

/-- The first check of R340 that a REGISTER_MOTIF fails. -/
def registerMotifStatus (p : SrvParams) (x : Taken) (s : State) : Option Nat :=
  let a := ent x.e 8 8
  let fn := x.fn
  let mine := (s.srv.motifs.filter fun y => y.2.registered && y.2.fn == fn).length
  firstFail [(onAdmin s x, 0x10), (s.srv.st == .ready, 0x22), (!p.forecasting, 0x10), (zeroElse x.e [(8, 8)] && a % 64 == 0, 0x11),
    (fn == 0 || decide (mine < (vfOf s fn).motifQuota), 4), ((pickOf s (motifsInUse s) 65536).isSome, 0x1B), (motifSetOk s p a, 0x1A)]

/-- REGISTER_MOTIF. -/
def registerMotifEntry (x : Taken) (s : State) : State :=
  match s.srv.params with
  | none => answer x (if onAdmin s x then 0x22 else 0x10) 0 s
  | some p =>
    let a := ent x.e 8 8
    let fn := x.fn
    let slot := pickOf s (motifsInUse s) 65536
    match registerMotifStatus p x s with
    | some st => answer x st 0 s
    | none => match slot with
      | none => s
      | some (i, s1) =>
        let gen := (s.motif i).gen
        let s2 := s1.setMotif i { gen := gen, registered := true, fn := fn, addr := a }
        answer x 0 (gen * 2 ^ 16 + i) (hbmPut s2 (p.motifTable + 8 * i) (leBytes 8 a))

/-- RELEASE_MOTIF (R341). -/
def releaseMotifEntry (x : Taken) (s : State) : State :=
  let m := ent x.e 16 4
  let slot := currentMotif s m
  match firstFail [(onAdmin s x, 0x10), (zeroElse x.e [(16, 4)], 0x11), (slot.isSome, 0x13), ((s.motif (slot.getD 0)).fn == x.fn, 0x19)] with
  | some st => answer x st 0 s
  | none => releaseMotifSlot s (slot.getD 0) (some (x.q, x.cid, x.sqhd))

/-- MOTIF_RELEASE_DONE: no context uses the motif of slot i any longer. -/
def motifReleaseDone (i : Nat) (s : State) : State :=
  let y := s.motif i
  match y.releasing with
  | none => s
  | some note =>
    if (liveCtxs s).any fun e => e.2.open && e.2.motif != 0 && e.2.motif % 2 ^ 16 == i then s
    else
      let s1 := s.setMotif i { gen := y.gen }
      let s2 := match s.srv.params with
        | some p => hbmPut s1 (p.motifTable + 8 * i) (List.replicate 8 0)
        | none => s1
      match note with
      | some (q, cid, sqhd) => complete s2 q { cid := cid, status := 0, sqhd := sqhd }
      | none => s2

/-! ## Posting (R333, R358, R382) -/

/-- The 32 bytes of a completion. -/
def complBytes (c : Compl) (phase : Bool) : List Byte :=
  leBytes 4 c.cid ++ leBytes 2 c.status ++ leBytes 1 (c.flags + b2n phase) ++ [0] ++ leBytes 2 c.sqhd ++ [0, 0] ++ leBytes 4 c.tokens ++ leBytes 8 c.result
    ++ leBytes 4 c.ttft ++ leBytes 4 c.maxGap

/-- The completion interrupt of a queue pair: once until CQ_HEAD is written (R333). -/
def complIrq (s : State) (q : Nat) : State :=
  match s.qp q with
  | some x =>
    if !x.ien || x.irqSent then s
    else
      let s1 := s.setQp q (some { x with irqSent := true })
      let fn := qpOwner s q
      if fn = 0 then raiseIrq s1 .srv 0 else raiseIrq s1 (.vfn fn) 0
  | none => s

/-- The completion that goes to the ring next, when the ring has room: at least one entry stays free (R329). -/
def postable (x : Qp) : Option Compl := if x.error || (x.cqTail + 1) % 2 ^ x.c == x.cqHead then none else x.ready.head?

/-- COMPLETION_POST. -/
def completionPost (q : Nat) (ringOk : Bool) (s0 : State) : State :=
  let s := firmwareReads s0
  match s.qp q with
  | none => s
  | some x =>
    match postable x with
    | none => s
    | some c =>
      if !ringOk || !hostReach s (qpOwner s q) then qpError s q 3
      else
        let wraps := decide (x.cqTail + 1 = 2 ^ x.c)
        let s1 := (hostPut s (qpOwner s q) (x.cq + 32 * x.cqTail) (complBytes c x.phase)).setQp q
          (some { x with ready := x.ready.drop 1, cqTail := (x.cqTail + 1) % 2 ^ x.c, phase := x.phase != wraps })
        let s2 := match c.ctx with
          | some i => (if bitOf c.flags 1 then s1.incReg .srv 0x5C else s1).freeCtx i
          | none => s1
        finishDelete (complIrq s2 q) q

/-- SQ_TAIL. -/
def execSqTail (q v : Nat) (s : State) := actBy (qpOwner s q) s fun s => if q < qpCount then sqTail q v s else s
/-- CQ_HEAD. -/
def execCqHead (q v : Nat) (s : State) := actBy (qpOwner s q) s fun s => if q < qpCount then cqHead q v s else s
/-- GENERATE; an entry with a reserved OPC is taken here too, and refused. -/
def execGenerate (q : Nat) (ringOk bufOk : Bool) (s : State) :=
  act s (takeEntry q ringOk (fun o => !([2, 3, 4] ++ (List.range 7).map (· + 16)).contains o) (generateEntry bufOk))
/-- CANCEL. -/
def execCancel (q : Nat) (ringOk : Bool) (s : State) := act s (takeEntry q ringOk (· == 2) cancelEntry)
/-- RIP_BACK. -/
def execRipBack (q : Nat) (ringOk : Bool) (s : State) := act s (takeEntry q ringOk (· == 3) ripBackEntry)
/-- FORECAST. -/
def execForecast (q : Nat) (ringOk : Bool) (s : State) := act s (takeEntry q ringOk (· == 4) forecastEntry)
/-- CREATE_QP. -/
def execCreateQp (q : Nat) (ringOk : Bool) (s : State) := act s (takeEntry q ringOk (· == 0x10) createQpEntry)
/-- DELETE_QP. -/
def execDeleteQp (q : Nat) (ringOk : Bool) (s : State) := act s (takeEntry q ringOk (· == 0x11) deleteQpEntry)
/-- REGISTER_PREFIX. -/
def execRegisterPrefix (q : Nat) (ringOk bufOk : Bool) (s : State) := act s (takeEntry q ringOk (· == 0x12) (registerPrefixEntry bufOk))
/-- RELEASE_PREFIX. -/
def execReleasePrefix (q : Nat) (ringOk : Bool) (s : State) := act s (takeEntry q ringOk (· == 0x13) releasePrefixEntry)
/-- REGISTER_MOTIF. -/
def execRegisterMotif (q : Nat) (ringOk : Bool) (s : State) := act s (takeEntry q ringOk (· == 0x14) registerMotifEntry)
/-- RELEASE_MOTIF. -/
def execReleaseMotif (q : Nat) (ringOk : Bool) (s : State) := act s (takeEntry q ringOk (· == 0x15) releaseMotifEntry)
/-- ASSIGN_QP. -/
def execAssignQp (q : Nat) (ringOk : Bool) (s : State) := act s (takeEntry q ringOk (· == 0x16) assignQpEntry)
/-- PREFIX_PREFILL_DONE. -/
def execPrefixPrefillDone (slot : Nat) (s : State) := act s (prefixPrefillDone slot)
/-- MOTIF_RELEASE_DONE. -/
def execMotifReleaseDone (slot : Nat) (s : State) := act s (motifReleaseDone slot)
/-- COMPLETION_POST. -/
def execCompletionPost (q : Nat) (ringOk : Bool) (s : State) := act s (completionPost q ringOk)
/-- SRV_AQ_SIZE_WRITE. -/
def execSrvAqSizeWrite (vf : Nat) (w : Word) (s : State) := actBy vf s (srvAqSizeWrite vf w)

end Sys2Proof.Machine
end

