-- ==== Sys2Proof/Machine/HostIf.lean ====
section
/-! DEFINITION. The host interface: resets of functions, the PCI Express link, and interrupt messages (R359, R367, R377, R378, R381). -/

namespace Sys2Proof.Machine

/-! ## Resets of functions (R367) -/

/-- The function whose memory a HOST operation uses. -/
def opFn (o : Op) : Nat := ((operandsOf o.desc).find? fun e => e.2.space == 5).elim 0 fun e => hostFn (o.eff.getD e.1 0)

/-- Cut off the HOST transfers of the functions that `hit` picks: KIND 5 (R367, R369). -/
def cutTransfers (hit : Nat → Bool) (s : State) : State :=
  s.cores.foldl (fun s e =>
    ((s.core e.1).inflight.filter fun o => usesHost o.desc && hit (opFn o)).foldl (fun s o =>
      hostRequestFail o.id 0 (fld o.desc 0).extent .resetOrBme e.1 s) s) s

/-- Delete a function's queue pairs: their requests end without completions. -/
def deleteQps (fn : Nat) (s : State) : State :=
  let s0 := s.modSrv fun r => { r with badQps := r.badQps.filter fun q => qpOwner s q != fn }
  (s.srv.qps.filter fun e => qpOwner s e.1 == fn).foldl (fun s e =>
    match s.qp e.1 with
    | none => s
    | some x => take (s.setQp e.1 (some { x with error := true, ready := [], deleting := some none }))
        { qp := e.1, cid := 0, sqhd := 0, act := .endAll e.1 true }) s0

/-- Release a function's prefixes and motifs. -/
def releaseHandles (fn : Nat) (s : State) : State :=
  let s1 := (s.srv.prefixes.filter fun e => e.2.registered && e.2.fn == fn).foldl (fun s e => releaseSlot s e.1) s
  (s1.srv.motifs.filter fun e => e.2.registered && e.2.fn == fn).foldl (fun s e => releaseMotifSlot s e.1 none) s1

/-- Host buffer table entries that `hit` picks by FUNC become invalid (R368). -/
def dropBuffers (hit : Nat → Bool) (s : State) : State :=
  (List.range 256).foldl (fun s n =>
    let off := 0x100C + 16 * n
    let v := s.regN .host off
    if bitOf v 31 && hit (v % 128) then s.setRegN .host off (v % 2 ^ 31) else s) s

/-- The registers of a block at the offsets that `hit` picks, back at their reset values; with the generic counters (R373). -/
def resetBlock (s : State) (b : Blk) (size : Nat) (hit : Nat → Bool) : State :=
  let gone (a : Nat) : Bool := decide (b.base ≤ a) && decide (a < b.base + size) && hit (a - b.base)
  { s with regs := s.regs.filter fun e => !gone e.1
           faultAt := s.faultAt.filter fun e => !gone e.1
           cnt := s.cnt.filter fun e => !(decide (b.base ≤ e.1) && decide (e.1 < b.base + 3)) }

/-- What a function level reset does to a function's requests. -/
def flrServing (fn : Nat) (s : State) : State := releaseHandles fn (deleteQps fn s)

/-- A virtual function's VFN block, SRV view and interrupt state after its reset. -/
def resetVfn (v : Nat) (s : State) : State :=
  let s1 := resetBlock s (.vfn v) 0x20000 fun _ => true
  { s1 with fns := FMap.put {} s1.fns v {}, srv := { s1.srv with flrWaits := true } }

/-- FLR_VF. -/
def flrVf (v : Nat) (s : State) : State :=
  if v = 0 ∨ 64 < v then s
  else resetVfn v (dropBuffers (· == v) (flrServing v (cutTransfers (· == v) s)))

/-- The HOST registers that a reset of the physical function keeps: BLK_ERR and HOST_XFER_INFO, and HOST_LINK while the link is up. -/
def keptAtReset (k : PfReset) (off : Nat) : Bool := off == 0x14 || off == 0x54 || (off == 0x48 && k == .flr)

/-- PF_RESET. -/
def pfReset (k : PfReset) (s : State) : State :=
  let s1 := (List.range 65).foldl (fun s fn => flrServing fn s) (cutTransfers (fun _ => true) s)
  let s2 := (List.range 64).foldl (fun s v => resetVfn (v + 1) s) (dropBuffers (fun _ => true) s1)
  let s3 := resetBlock s2 .host 0x10000 fun off => !keptAtReset k off
  { s3.modSrv fun r => { r with vfs := [] } with fns := FMap.put {} s3.fns 0 {} }

/-! ## The link (R359, R381) -/

/-- A rate, width and mode that the port trains to. -/
def linkOk (speed width : Nat) (flit : Bool) : Bool :=
  (speed == 0 && width == 0 && !flit)
  || (decide (1 ≤ speed) && decide (speed ≤ 6) && [1, 2, 4, 8, 16].contains width && (speed != 6 || flit))

/-- LINK_CHANGE. -/
def linkChange (speed width : Nat) (flit : Bool) (s : State) : State :=
  let old := s.regN .host 0x48
  let new := width * 2 ^ 8 + b2n flit * 2 ^ 7 + speed
  if !linkOk speed width flit then s
  else
    let s1 := s.setRegN .host 0x48 new
    if old % 8 ≠ speed ∨ bits old 8 5 ≠ width then raiseIrq s1 .host 0 else s1

/-! ## Interrupt messages (R377, R378) -/

/-- A write of REARM: the message again while the condition is 1. -/
def irqRearm (fn : Nat) (s : State) : State := if fn ≤ 64 && fnCondition s fn then messageDue s fn else s

/-- A function's vector, when neither mask holds it and a message is pending: the message if the condition is still 1, and the pending bit
clears; a message that D3hot holds back stays pending (R377, log entry 149). -/
def unmasked (fn : Nat) (s : State) : State :=
  let f := FMap.look {} s.fns fn
  if f.pba && f.msixEnable && !f.funcMask && !vectorMasked s fn then
    let s1 := { s with fns := FMap.put {} s.fns fn { f with pba := false } }
    if !fnCondition s fn then s1 else if f.d3hot then s else send s1 (.msix fn)
  else s

/-- MSIX_UNMASK: the Mask bit of the vector is cleared. -/
def msixUnmask (fn : Nat) (s : State) : State :=
  if 64 < fn then s
  else
    let b := if fn = 0 then Blk.host else Blk.vfn fn
    unmasked fn (s.setRegN b 0x200C (setBits (s.regN b 0x200C) 0 1 0))

/-- FLR_VF. -/
def execFlrVf (vf : Nat) (s : State) := act s (flrVf vf)
/-- PF_RESET. -/
def execPfReset (k : PfReset) (s : State) := act s (pfReset k)
/-- LINK_CHANGE. -/
def execLinkChange (speed width : Nat) (flit : Bool) (s : State) := act s (linkChange speed width flit)
/-- HOST_IRQ_REARM. -/
def execHostIrqRearm (s : State) := actBy 0 s (irqRearm 0)
/-- VF_IRQ_REARM. -/
def execVfIrqRearm (vf : Nat) (s : State) := actBy vf s fun s => if vf = 0 then s else irqRearm vf s
/-- MSIX_UNMASK. -/
def execMsixUnmask (fn : Nat) (s : State) := actBy fn s (msixUnmask fn)

end Sys2Proof.Machine
end

