-- ==== Sys2Proof/Machine/Clocks.lean ====
section
/-! DEFINITION. References, PLLs, die-to-die interfaces, plan clock settings and TIME (R18, R390 to R401, R415, R419). -/

namespace Sys2Proof.Machine

/-! ## References (R390 to R394) -/

/-- SYSREF_LOST: every PLL that SYSREF drives enters holdover and does not relock. -/
def sysrefLost (s : State) : State :=
  if !s.clk.sysrefOk then s
  else
    let start := match s.clk.holdover with
      | some t => t
      | none => s.time.toNat
    raiseErr { s with clk := { s.clk with sysrefOk := false, pllLock := false, holdover := some start } } .clk 0

/-- HOLDOVER_END: 1 ms after the loss the PLLs run free. -/
def holdoverEnd (s : State) : State :=
  match s.clk.holdover with
  | some t => if t + 1000000 ≤ s.time.toNat then { s with clk := { s.clk with free := true } } else s
  | none => s

/-- REFERENCE_RESTORED: the monitor declares the reference present again. -/
def referenceRestored (r : RefClk) (s : State) : State :=
  match r with
  | .sysref => { s with clk := { s.clk with sysrefOk := true } }
  | .refclk100 => { s with clk := { s.clk with refclkOk := true } }

/-- REFCLK_LOST: the PCI Express link goes down, with the effects of R367. -/
def refclkLost (s : State) : State :=
  if !s.clk.refclkOk then s
  else raiseErr (pfReset .linkDown { s with clk := { s.clk with refclkOk := false } }) .clk 1

/-- PLL_UNLOCK: with its reference present. -/
def pllUnlock (s : State) : State :=
  if !s.clk.sysrefOk then s else raiseErr { s with clk := { s.clk with pllLock := false } } .clk 2

/-! ## Die-to-die interfaces (R18, R396, R419) -/

/-- The interfaces of panel p by rising number. -/
def d2dsOf (p : Nat) : List Nat :=
  (List.range 10).filter fun m => let e := d2dPairs.getD m (8, 8); e.1 == p || e.2 == p

/-- The number of entry i of panel p, when the interface is in use in this grade. -/
def d2dNumber (s : State) (p i : Nat) : Option Nat :=
  match (d2dsOf p)[i]? with
  | some m => let e := d2dPairs.getD m (8, 8); if e.1 < s.fuses.panels ∧ e.2 < s.fuses.panels then some m else none
  | none => none

/-- The receiving side of an interface. -/
def State.d2d (s : State) (p i : Nat) : D2d := FMap.look {} s.d2ds (3 * p + i)

/-- Replace the receiving side of an interface. -/
def State.setD2d (s : State) (p i : Nat) (x : D2d) : State := { s with d2ds := FMap.put {} s.d2ds (3 * p + i) x }

/-- Every crossing of an interface in use is locked, or none is (R396). -/
def lockCrossings (on : Bool) (s : State) : State :=
  (List.range s.fuses.panels).foldl (fun s p => (List.range 3).foldl (fun s i =>
    if (d2dNumber s p i).isSome then s.setD2d p i { s.d2d p i with locked := on } else s) s) s

/-- Lane repair has replaced lanes at the entries of a map of them (R17, R419). -/
def lanesRepaired (m : FMap Nat) (s : State) : State :=
  m.foldl (fun s e => s.setD2d (e.1 / 3) (e.1 % 3) { s.d2d (e.1 / 3) (e.1 % 3) with repaired := e.2 % 256 })
    (s.d2ds.foldl (fun s e => s.setD2d (e.1 / 3) (e.1 % 3) { e.2 with repaired := 0 }) s)

/-- D2D_CRC_FAIL: the first failure of a unit starts retry 1 with a hold request, each failed retry the next, and the failure of
the 16th is fatal. -/
def d2dCrcFail (p i : Nat) (s : State) : State :=
  let x := s.d2d p i
  if (d2dNumber s p i).isNone then s
  else if 16 ≤ x.fails then raiseErr s (.d2d p) 0
  else
    let s1 := (s.setD2d p i { x with fails := x.fails + 1 }).incReg (.d2d p) (0x44 + 16 * i)
    if x.fails = 0 then raiseHold s1 7 p true 1 [.d2d p i] else s1

/-- D2D_RETRY_SUCCESS: the unit has been received with a good CRC; its hold request's item arrives (R94). -/
def d2dRetrySuccess (p i : Nat) (s : State) : State :=
  let x := s.d2d p i
  if x.fails = 0 then s else markItems (s.setD2d p i { x with fails := 0 }) fun _ it => decide (it = .d2d p i)

/-- D2D_PHASE. -/
def d2dPhase (p i : Nat) (s : State) : State :=
  if (d2dNumber s p i).isSome && (s.d2d p i).locked then raiseErr s (.d2d p) 1 else s

/-! ## Plan clock settings (R397, R492) -/

/-- PLAN_SET_CHANGE: a write of CLK_CTRL.PLAN_SET. The setting already selected starts no change. -/
def planSetChange (v : Nat) (s : State) : State :=
  if 3 ≤ v ∨ !allIdle s ∨ s.castSt = .released then s.countNoEffect .clk
  else if v = s.regN .clk 0x40 % 4 then s
  else lockCrossings false { s.setRegN .clk 0x40 v with clk := { s.clk with switching := some s.time.toNat } }

/-- Firmware sets each panel's VCORE to its fused setpoint for the setting in force (R492). -/
def setVcore (s : State) : State :=
  (List.range s.fuses.panels).foldl (fun s p =>
    { s with pins := { s.pins with vcore := FMap.put 750 s.pins.vcore p (FMap.look 750 s.fuses.vcore (3 * p + s.clk.set)) } }) s

/-- PLAN_SWITCH_DONE: the clocks restart at the new setting and the crossings are locked again. -/
def planSwitchDone (s : State) : State :=
  match s.clk.switching with
  | none => s
  | some _ =>
    raiseIrq (lockCrossings true (setVcore { s with clk := { s.clk with set := s.regN .clk 0x40 % 4, switching := none } })) .clk 2

/-! ## TIME (R398 to R401) -/

/-- TIME_STEP: a write of CLK_TIME_CMD with STEP; `alsoSlew` when SLEW is written with it. -/
def timeStep (alsoSlew : Bool) (s : State) : State :=
  if alsoSlew || s.castSt == .released then raiseErr s .clk 3
  else { s with clk := { s.clk with stepTo := some (BitVec.ofNat 64 (s.reg64 .clk 0x50)), slewLeft := 0, slewOwed := 0 } }

/-- TIME_SLEW: a write of CLK_TIME_CMD with SLEW; a last nanosecond not yet adjusted passes as it is. -/
def timeSlew (alsoStep : Bool) (s : State) : State :=
  if alsoStep then raiseErr s .clk 3
  else { s with time := s.time + BitVec.ofNat 64 s.clk.slewOwed
                clk := { s.clk with slewLeft := signed 32 (s.regN .clk 0x58), slewAt := 0, slewOwed := 0 } }

/-- SLEW_ADJUST: the last nanosecond of a block, doubled or skipped. -/
def slewAdjust (s : State) : State :=
  let c := s.clk
  if c.slewOwed = 0 ∨ c.slewLeft = 0 then s
  else
    let up := decide (0 < c.slewLeft)
    let left := if up then c.slewLeft - 1 else c.slewLeft + 1
    let s1 := { s with time := if up then s.time + 2 else s.time, clk := { c with slewLeft := left, slewOwed := c.slewOwed - 1 } }
    if left = 0 then raiseIrq s1 .clk 1 else s1

/-- PPS_IN_EDGE. -/
def ppsInEdge (s : State) : State := raiseIrq ((s.setReg64 .clk 0x64 s.time.toNat).incReg .clk 0x6C) .clk 0

/-- SYSREF_LOST. -/
def execSysrefLost (s : State) := act s sysrefLost
/-- HOLDOVER_END. -/
def execHoldoverEnd (s : State) := act s holdoverEnd
/-- REFERENCE_RESTORED. -/
def execReferenceRestored (r : RefClk) (s : State) := act s (referenceRestored r)
/-- REFCLK_LOST. -/
def execRefclkLost (s : State) := act s refclkLost
/-- PLL_UNLOCK. -/
def execPllUnlock (s : State) := act s pllUnlock
/-- D2D_CRC_FAIL. -/
def execD2dCrcFail (p i : Nat) (s : State) := act s (d2dCrcFail p i)
/-- D2D_RETRY_SUCCESS. -/
def execD2dRetrySuccess (p i : Nat) (s : State) := act s (d2dRetrySuccess p i)
/-- D2D_PHASE. -/
def execD2dPhase (p i : Nat) (s : State) := act s (d2dPhase p i)
/-- PLAN_SET_CHANGE. -/
def execPlanSetChange (v : Nat) (s : State) := actBy 0 s (planSetChange v)
/-- PLAN_SWITCH_DONE. -/
def execPlanSwitchDone (s : State) := act s planSwitchDone
/-- TIME_STEP. -/
def execTimeStep (alsoSlew : Bool) (s : State) := actBy 0 s (timeStep alsoSlew)
/-- TIME_SLEW. -/
def execTimeSlew (alsoStep : Bool) (s : State) := actBy 0 s (timeSlew alsoStep)
/-- SLEW_ADJUST. -/
def execSlewAdjust (s : State) := act s slewAdjust
/-- PPS_IN_EDGE. -/
def execPpsInEdge (s : State) := act s ppsInEdge

end Sys2Proof.Machine
end

