-- ==== Sys2Proof/Machine/Hbm.lean ====
section
/-! DEFINITION. The HBM controllers: granule starts, refresh windows, scrub slots, FREE mode, errors and injection, and the
host's aperture (R234 to R241, R258, R260). -/

namespace Sys2Proof.Machine

/-! ## Errors (R240, R260) -/

/-- HBM_UNCORR with its record: the first since the host cleared it. -/
def hbmUncorr (s : State) (p st addr : Nat) (scrub : Bool) : State :=
  let b := Blk.hbm p st
  raiseErr (recordFirst s b 0x60 0 0 fun s =>
    ((s.setRegN b 0x60 (2 ^ 31 + b2n scrub * 2 ^ 30 + 1)).setReg64 b 0x64 (addr - addr % 32)).setReg64 b 0x6C s.ptc.toNat) b 0

/-- The bytes of one 32-byte word replaced. -/
def replaceWord (base : Nat) (data : List Byte) (word : Nat) (f : Nat → Byte → Byte) : List Byte :=
  (List.range data.length).zip data |>.map fun (i, b) => if word ≤ base + i ∧ base + i < word + 32 then f (base + i - word) b else b

/-- An error found in a granule read: a corrected word is counted, an uncorrectable one reported and delivered as read. -/
def hbmFound (p st base : Nat) (scrub : Bool) (acc : List Byte × State) (e : WordError) : List Byte × State :=
  let word := e.addr - e.addr % 32
  if e.double then (replaceWord base acc.1 word (fun i b => Config.hbmAsRead word i b), hbmUncorr acc.2 p st word scrub)
  else (acc.1, acc.2.incReg (.hbm p st) 0x58)

/-- An armed HBM_INJECT acts on the granule that a read touches first (R260). -/
def hbmInjected (p st base : Nat) (scrub : Bool) (acc : List Byte × State) : List Byte × State :=
  let b := Blk.hbm p st
  let s := acc.2
  let w := s.regN b 0x74
  if !bitOf w 31 then acc
  else
    let s1 := s.setRegN b 0x74 (w % 2 ^ 31)
    let word := base - base % 256
    if w % 4 = 0 then (acc.1, s1.incReg b 0x58)
    else
      let bad := (Config.hbmTwoSymbol (Mem.bytes s.hbm word 32)).toArray
      (replaceWord base acc.1 word (fun i b => bad.getD i b), hbmUncorr s1 p st word scrub)

/-- The order of R235: arrival, port index, then granule order. -/
def Granule.key (g : Granule) : Nat := ((g.arrival * 4096 + g.port) * 2 ^ 40 + g.order) * 2 ^ 32 + g.beat

/-- What a granule request writes. -/
def Granule.data (g : Granule) : List Byte := match g.kind with
  | .write bs | .hostWrite bs => bs
  | _ => []

/-- The queued writes of a stack that touch the granule of a device address and come before the request of key `key`, in order. -/
def writesBefore (h : HbmStack) (a key : Nat) : List Granule :=
  byPort Granule.key (h.queue.filter fun g => g.data != [] && g.dev / 256 == a / 256 && decide (g.key < key))

/-- Bytes of one granule as a read of key `key` sees them: with every write that reached the controller before it (R235). -/
def hbmBytes (s : State) (p st key a n : Nat) : List Byte :=
  laidOver ((writesBefore (s.hbmStack p st) a key).map fun g => (g.dev, g.data)) s.hbm a n

/-- The queued writes to a granule that come before the write of key `key` reach the stack before it. -/
def writeOlder (s : State) (p st key a : Nat) : State :=
  let h := s.hbmStack p st
  let old := writesBefore h a key
  if old.isEmpty then s
  else
    let spent (g : Granule) : Granule := if old.contains g then { g with kind := match g.kind with
      | .hostWrite _ => .hostWrite []
      | _ => .write [] } else g
    { s.setHbmStack p st { h with queue := h.queue.map spent } with hbm := old.foldl (fun m g => Mem.store m g.dev g.data) s.hbm }

/-- A write of key `key` reaches the stack. -/
def hbmStore (s : State) (p st key a : Nat) (data : List Byte) : State :=
  let s1 := writeOlder s p st key a
  { s1 with hbm := Mem.store s1.hbm a data }

/-- A read of one granule from device address `base` that stands as `data`, with the errors that the read finds. -/
def hbmRead (s : State) (p st base : Nat) (data : List Byte) (found : List WordError) (scrub : Bool) : List Byte × State :=
  let g := base - base % 256
  let here := found.filter fun e => decide (g ≤ e.addr) && decide (e.addr < g + 256)
  here.foldl (hbmFound p st base scrub) (hbmInjected p st base scrub (data, s))

/-! ## When a granule can start (R235, R237) -/

/-- Plan clock periods until PTC next equals `phase` mod `period`; none while nothing says when PTC moves. -/
def untilPtc (s : State) (period phase : Nat) : Option Nat :=
  let d := (phase + period - s.ptc.toNat % period) % period
  if ptcRuns s then some d
  else match s.hold.bind (·.broadcast) with
    | some w => some (d + (w + 24 - s.wall))
    | none => none

/-- A planned stack's next refresh window or scrub slot starts within n periods. -/
def startsWithin (s : State) (p st n : Nat) : Bool :=
  let b := Blk.hbm p st
  let near (o : Option Nat) : Bool := match o with
    | some d => decide (d < n)
    | none => false
  planned s p st && (near (untilPtc s (s.regN b 0x44) (s.regN b 0x48)) || near (untilPtc s (2 ^ (s.regN b 0x4C)) (s.regN b 0x50)))

/-- No refresh command, refresh window or scrub slot of the stack is in progress or starts within tG. -/
def stackFree (s : State) (p st : Nat) : Bool :=
  let h := s.hbmStack p st
  domOn s p 9 && decide (h.refreshUntil ≤ s.wall) && decide (h.windowUntil ≤ s.wall) && decide (h.slotUntil ≤ s.wall) && !startsWithin s p st (tG s)

/-- The spacing of granule starts on a pseudo-channel and in a bank. -/
def spacingOk (s : State) (h : HbmStack) (pc bank : Nat) : Bool :=
  let last := FMap.look 0 h.lastStart pc
  let same := FMap.look 0 h.bankStart (64 * pc + bank)
  (last == 0 || decide (last - 1 + tG s ≤ s.wall)) && (same == 0 || decide (same - 1 + tRC s ≤ s.wall))

/-- Note a granule start in the tick of wall tick `at_`. -/
def noteStart (s : State) (p st pc bank at_ : Nat) : State :=
  let h := s.hbmStack p st
  s.setHbmStack p st { h with lastStart := FMap.put 0 h.lastStart pc (at_ + 1), bankStart := FMap.put 0 h.bankStart (64 * pc + bank) (at_ + 1) }

/-- A request of the host (R258). -/
def Granule.isHost (g : Granule) : Bool := match g.kind with
  | .hostRead _ _ | .hostWrite _ => true
  | _ => false

/-- The requests that wait on a pseudo-channel. -/
def arrivedOn (s : State) (p st pc : Nat) : List Granule :=
  (s.hbmStack p st).queue.filter fun g => decide (g.arrival ≤ s.wall) && (hbmPlace s g.dev).2.2.1 == pc

/-- The requests that may start: while a timed segment runs, the host's wait for the scrub slots of a PLANNED stack (R234). -/
def waitingOn (s : State) (p st pc : Nat) : List Granule :=
  (arrivedOn s p st pc).filter fun g => !(g.isHost && planned s p st && timedRuns s)

/-- Room in the planned part for a granule's beats; a write, a fetch and a host access need none (R228, R239). -/
def roomFor (s : State) (g : Granule) : Bool :=
  match g.kind with
  | .read | .feed => decide (g.beats ≤ bufferRoom (s.core g.core) true)
  | .write _ | .fetch | .hostRead _ _ | .hostWrite _ => true

/-- The returned beats of a granule: beat j is ready tL + floor(j tG / 4) after the start, 48 pt later from another panel. -/
def returnBeats (s : State) (g : Granule) (p : Nat) (data : List Byte) : List RetBeat :=
  let far := if p = g.core / 288 then 0 else 48
  (List.range g.beats).map fun j : Nat =>
    { addr := g.dst + 64 * j, bytes := (data.drop (64 * j)).take 64, ready := s.wall + tL s + (g.dev % 256 / 64 + j) * tG s / 4 + far
      planned := true, order := g.order, op := some g.op, beat := g.beat + j, fifo := g.kind == .feed }

/-- A fetch granule returns its bytes at tick `ready`. -/
def Fetch.returned (f : Fetch) (id ready : Nat) (data : List Byte) : Fetch :=
  { f with out := f.out.map fun x => if x.id = id then { x with bytes := data, ready := some ready } else x }

/-- A fetch granule of a stream returns, for whichever of its segments it was requested. -/
def fetchReturns (s : State) (k id ready : Nat) (data : List Byte) : State :=
  s.modStream k fun x => { x with
    old := x.old.map fun o => { o with fetch := o.fetch.returned id ready data }
    tr := { x.tr with fetch := x.tr.fetch.returned id ready data }
    nextFetch := x.nextFetch.returned id ready data }

/-- Bytes from place `i` of a byte list replaced. -/
def splice (old : List Byte) (i : Nat) (new : List Byte) : List Byte := old.take i ++ new ++ old.drop (i + new.length)

/-- Part of a host read is answered; the host has its data with the last (log entry 141). -/
def hostReadPart (s : State) (id off : Nat) (data : List Byte) : State :=
  match s.hostReads.find? fun r => r.id == id with
  | none => s
  | some r =>
    let bytes := splice r.bytes off data
    if r.left ≤ 1 then { s with hostReads := s.hostReads.filter fun x => x.id != id, reply := ⟨BitVec.ofNat 64 (leNat (bytes.take 8)), bytes⟩ }
    else { s with hostReads := s.hostReads.map fun x => if x.id = id then { x with bytes := bytes, left := x.left - 1 } else x }

/-- What a started granule does. -/
def granuleEffect (s : State) (p st : Nat) (g : Granule) (found : List WordError) : State :=
  match g.kind with
  | .write bs | .hostWrite bs => hbmStore s p st g.key g.dev bs
  | .read | .feed =>
    let (data, s1) := hbmRead s p st g.dev (hbmBytes s p st g.key g.dev (64 * g.beats)) found false
    s1.modCore g.core fun c => { c with ret := c.ret ++ returnBeats s g p data }
  | .fetch =>
    let (data, s1) := hbmRead s p st g.dev (hbmBytes s p st g.key g.dev 256) found false
    let far := if p = g.core / 288 then 0 else 48
    fetchReturns s1 g.core g.op (s.wall + tL s + 3 * tG s / 4 + far) data
  | .hostRead id n =>
    let (data, s1) := hbmRead s p st g.dev (hbmBytes s p st g.key g.dev n) found false
    hostReadPart s1 id g.beat data

/-- A request leaves its queue. -/
def dequeue (s : State) (p st : Nat) (g : Granule) : State :=
  let h := s.hbmStack p st
  s.setHbmStack p st { h with queue := h.queue.erase g }

/-- HBM_GRANULE_START (R235). -/
def hbmGranuleStart (p st pc : Nat) (found : List WordError) (s : State) : State :=
  match minOn? Granule.key (waitingOn s p st pc) with
  | none => s
  | some g =>
    let bank := (hbmPlace s g.dev).2.2.2
    if !stackFree s p st || !spacingOk s (s.hbmStack p st) pc bank || !roomFor s g then s
    else granuleEffect (noteStart (dequeue s p st g) p st pc bank s.wall) p st g found

/-! ## Windows, slots and FREE mode (R234, R238, R241) -/

/-- PTC has just reached a start value of a planned stack. -/
def atPtc (s : State) (p st period phase : Nat) : Bool :=
  planned s p st && domOn s p 9 && ptcRuns s && decide (period ≠ 0) && s.ptc.toNat % period == phase

/-- HBM_REFRESH_WINDOW (R238): two all-bank refreshes to every pseudo-channel. -/
def hbmRefreshWindow (p st : Nat) (s : State) : State :=
  let b := Blk.hbm p st
  let h := s.hbmStack p st
  if atPtc s p st (s.regN b 0x44) (s.regN b 0x48) && h.windowFrom != s.wall + 1 then
    s.setHbmStack p st { h with windowUntil := s.wall + windowLen s, windowFrom := s.wall + 1 }
  else s

/-- Granules per pseudo-channel of a stack. -/
def scrubTotal (s : State) : Nat := populated s / 3 / 256 / 32

/-- The device address of the granule at a scrub position of a pseudo-channel (R232). -/
def scrubAddr (s : State) (p st pc pos : Nat) : Nat := p * 0x2000000000 + 256 * (3 * (32 * (pos % scrubTotal s) + pc) + st)

/-- The pseudo-channel reads a granule at its scrub position: corrected words are written back and counted, others reported. -/
def scrubGranule (p st pc : Nat) (found : List WordError) (s : State) : State :=
  let pos := FMap.look 0 (s.hbmStack p st).scrubPos pc
  let dev := scrubAddr s p st pc pos
  let s1 := (hbmRead s p st dev (Mem.bytes s.hbm dev 256) found true).2
  let h := s1.hbmStack p st
  s1.setHbmStack p st { h with scrubPos := FMap.put 0 h.scrubPos pc (pos + 1) }

/-- HBM_SCRUB_PASS: the passes that every pseudo-channel has completed. -/
def notePasses (p st : Nat) (s : State) : State :=
  let h := s.hbmStack p st
  let least := ((List.range 32).map fun pc => FMap.look 0 h.scrubPos pc / scrubTotal s).min?.getD 0
  s.setRegN (.hbm p st) 0x5C (least % 2 ^ 32)

/-- The ticks of a slot of n ticks, from now, that no refresh window of the stack takes: neither one that runs nor those that come. -/
def slotTicks (s : State) (p st n : Nat) : List Nat :=
  let b := Blk.hbm p st
  let h := s.hbmStack p st
  let period := s.regN b 0x44
  let next := untilPtc s period (s.regN b 0x48)
  (List.range n).filter fun i => decide (h.windowUntil ≤ s.wall + i) && match next with
    | some d => decide (i < d) || decide (windowLen s ≤ (i - d) % period)
    | none => true

/-- One granule of a slot on a pseudo-channel, `i` ticks from now: a waiting host access, or the scrubber's next (R241). -/
def slotGranule (p st pc : Nat) (found : List WordError) (s : State) (i : Nat) : State :=
  match minOn? Granule.key ((arrivedOn s p st pc).filter Granule.isHost) with
  | some g => granuleEffect (noteStart (dequeue s p st g) p st pc (hbmPlace s g.dev).2.2.2 (s.wall + i)) p st g found
  | none =>
    let dev := scrubAddr s p st pc (FMap.look 0 (s.hbmStack p st).scrubPos pc)
    scrubGranule p st pc found (noteStart s p st pc (hbmPlace s dev).2.2.2 (s.wall + i))

/-- HBM_SCRUB_SLOT (R241): each pseudo-channel's granules follow one another in the slot's ticks (log entry 142). -/
def hbmScrubSlot (p st : Nat) (found : List WordError) (s : State) : State :=
  let b := Blk.hbm p st
  let h := s.hbmStack p st
  if !atPtc s p st (2 ^ (s.regN b 0x4C)) (s.regN b 0x50) || decide (s.wall < h.slotUntil) then s
  else
    let len := s.regN b 0x54
    let free := slotTicks s p st len
    let starts := (List.range (free.length / tG s)).map fun i => free.getD (i * tG s) 0
    let s1 := s.setHbmStack p st { h with slotUntil := s.wall + len }
    notePasses p st ((List.range 32).foldl (fun s pc => starts.foldl (slotGranule p st pc found) s) s1)

/-- HBM_FREE_REFRESH (R234): one every 1,950 ns of TIME from the entry into FREE. -/
def hbmFreeRefresh (p st : Nat) (s : State) : State :=
  let h := s.hbmStack p st
  if !planned s p st && domOn s p 9 && decide (h.freeSince + 1950 * (h.freeRefs + 1) ≤ s.time.toNat) then
    s.setHbmStack p st { h with freeRefs := h.freeRefs + 1, refreshUntil := Nat.max h.refreshUntil (s.wall + nsToPeriods s (refreshNs s)) }
  else s

/-- HBM_PATROL_SCRUB (R234): in FREE mode, when no request waits on the pseudo-channel. -/
def hbmPatrolScrub (p st pc : Nat) (found : List WordError) (s : State) : State :=
  let h := s.hbmStack p st
  let dev := scrubAddr s p st pc (FMap.look 0 h.scrubPos pc)
  let bank := (hbmPlace s dev).2.2.2
  if planned s p st || 32 ≤ pc || !stackFree s p st || !spacingOk s h pc bank || !(waitingOn s p st pc).isEmpty then s
  else notePasses p st (scrubGranule p st pc found (noteStart s p st pc bank s.wall))

/-- The phases of a stack are below their periods (R260). -/
def phasesOk (s : State) (p st : Nat) : Bool :=
  let b := Blk.hbm p st
  decide (s.regN b 0x48 < s.regN b 0x44) && decide (s.regN b 0x50 < 2 ^ (s.regN b 0x4C))

/-- A stack enters FREE mode: its refreshes count from now (R234). -/
def enterFree (s : State) (p st : Nat) : State :=
  if !planned s p st then s
  else
    let h := s.hbmStack p st
    (s.setRegN (.hbm p st) 0x40 0).setHbmStack p st { h with freeSince := s.time.toNat, freeRefs := 0 }

/-- HBM_MODE_WRITE (R234, R260). -/
def hbmModeWrite (p st : Nat) (pl : Bool) (s : State) : State :=
  let b := Blk.hbm p st
  if timedRuns s then s.countNoEffect b
  else if pl then (if phasesOk s p st then s.setRegN b 0x40 1 else s.countNoEffect b)
  else enterFree s p st

/-! ## The host's aperture (R258, R262) -/

/-- The place of host requests among those that arrive in one tick: after every port of R102, which gives them none (log entry 141). -/
def hostPort : Nat := 4095

/-- Where BAR4 offset 0 reaches. -/
def aptBase (s : State) : Nat :=
  let size := 2 ^ (s.regN .mem 0x48 % 64)
  let b := s.reg64 .mem 0x40 % 2 ^ 48
  b - b % size

/-- APT_UNMAPPED, and the address of the first since the host cleared it. -/
def aptUnmapped (s : State) (dev : Nat) : State :=
  raiseErr (if bitOf (s.regN .mem 0x14) 0 then s else s.setReg64 .mem 0x50 (dev % 2 ^ 48)) .mem 0

/-- An extent of bytes cut at granule boundaries, at most `fuel` parts: device address and bytes of each. -/
def byteParts : Nat → Nat → Nat → List (Nat × Nat)
  | 0, _, _ => []
  | fuel + 1, a, n =>
    if n = 0 then []
    else
      let m := Nat.min n (256 - a % 256)
      (a, m) :: byteParts fuel (a + m) (n - m)

/-- The parts of a host access that reach a stack: populated, and of a panel whose domain 9 is ON. -/
def hostReaches (s : State) (e : Nat × Nat) : Bool := hbmAddrOk s e.1 && domOn s (hbmPlace s e.1).1 9

/-- The panels that a host access needs with domain 9 not ON (R406). -/
def hostOff (s : State) (parts : List (Nat × Nat)) : List Nat :=
  ((parts.filter fun e => hbmAddrOk s e.1 && !domOn s (hbmPlace s e.1).1 9).map fun e => (hbmPlace s e.1).1).eraseDups

/-- The errors of a host access. -/
def hostErrors (s : State) (parts : List (Nat × Nat)) : State :=
  let s1 := match parts.find? fun e => !hbmAddrOk s e.1 with
    | some e => aptUnmapped s e.1
    | none => s
  (hostOff s parts).foldl (fun s p => domainOffHost s p 9) s1

/-- A number that no waiting host read has. -/
def freshHostId (s : State) : Nat := s.hostReads.foldl (fun n r => Nat.max n (r.id + 1)) 0

/-- BAR4_ACCESS (R258): through the aperture onto device addresses, granule by granule through the controllers. What is not populated,
absent or not ON reads 0 and takes no write. -/
def bar4Access (off : Nat) (a : HostAccess) (s0 : State) : State :=
  let dev := aptBase s0 + off
  let n := match a with
    | .read n => n
    | .write bs => bs.length
  let parts := byteParts n dev n
  if 2 ^ (s0.regN .mem 0x48 % 64) ≤ off then s0
  else
    let s := hostErrors s0 parts
    let go := parts.filter (hostReaches s)
    let id := freshHostId s
    let request (kind : GranuleKind) (e : Nat × Nat) : Granule :=
      { kind := kind, core := 0, op := 0, order := 0, dev := e.1, beat := e.1 - dev, beats := 0, dst := 0, arrival := s.wall, port := hostPort }
    match a with
    | .write bs => go.foldl (fun s e => sendGranule s (request (.hostWrite ((bs.drop (e.1 - dev)).take e.2)) e)) s
    | .read _ =>
      if go.isEmpty then { s with reply := ⟨0, List.replicate n 0⟩ }
      else go.foldl (fun s e => sendGranule s (request (.hostRead id e.2) e))
        { s with hostReads := s.hostReads ++ [⟨id, List.replicate n 0, go.length⟩] }

/-! ## Domain 9 leaves ON (R406) -/

/-- A waiting request completes with zero data, or its data is discarded. -/
def granuleLost (p : Nat) (s : State) (g : Granule) : State :=
  match g.kind with
  | .write _ => domainOff s g.core p 9
  | .read => zeroBeats (domainOff s g.core p 9) g.core g.op true false g.dst g.beat g.beats
  | .feed => zeroBeats (domainOff s g.core p 9) g.core g.op true true g.dst g.beat g.beats
  | .fetch => fetchReturns (domainOff s g.core p 9) g.core g.op s.wall (List.replicate 256 0)
  | .hostWrite _ => domainOffHost s p 9
  | .hostRead id n => hostReadPart (domainOffHost s p 9) id g.beat (List.replicate n 0)

/-- The requests that wait at the controllers of panel p. -/
def hbmLost (s : State) (p : Nat) : State :=
  [0, 1, 2].foldl (fun s st =>
    let h := s.hbmStack p st
    h.queue.foldl (granuleLost p) (s.setHbmStack p st { h with queue := [] })) s

/-- HBM_GRANULE_START. -/
def execHbmGranuleStart (p st pc : Nat) (found : List WordError) (s : State) := act s fun s => onBlock s (.hbm p st) (hbmGranuleStart p st pc found)
/-- HBM_REFRESH_WINDOW. -/
def execHbmRefreshWindow (p st : Nat) (s : State) := act s fun s => onBlock s (.hbm p st) (hbmRefreshWindow p st)
/-- HBM_SCRUB_SLOT. -/
def execHbmScrubSlot (p st : Nat) (found : List WordError) (s : State) := act s fun s => onBlock s (.hbm p st) (hbmScrubSlot p st found)
/-- HBM_FREE_REFRESH. -/
def execHbmFreeRefresh (p st : Nat) (s : State) := act s fun s => onBlock s (.hbm p st) (hbmFreeRefresh p st)
/-- HBM_PATROL_SCRUB. -/
def execHbmPatrolScrub (p st pc : Nat) (found : List WordError) (s : State) := act s fun s => onBlock s (.hbm p st) (hbmPatrolScrub p st pc found)
/-- HBM_MODE_WRITE. -/
def execHbmModeWrite (p st : Nat) (planned : Bool) (s : State) := actBy 0 s fun s => onBlock s (.hbm p st) (hbmModeWrite p st planned)
/-- HBM_INJECT: a write of the register (R260). -/
def execHbmInject (p st : Nat) (w : Word) (s : State) := actBy 0 s fun s => onBlock s (.hbm p st) fun s => s.writeReg (.hbm p st) 0x74 w
/-- BAR4_ACCESS. -/
def execBar4Access (off : Nat) (a : HostAccess) (s : State) := actBy 0 s (bar4Access off a)

end Sys2Proof.Machine
end

