-- ==== Sys2Proof/Machine/Stash.lean ====
section
/-! DEFINITION. The stash controllers: page reads, commands, scrub and wear (R242 to R249, R261). -/

namespace Sys2Proof.Machine

/-! ## Errors -/

/-- STASH_UNCORR with its record: the first since the host cleared it (R243, R248, R261). -/
def stashUncorr (s : State) (p addr : Nat) (scrub : Bool) : State :=
  let b := Blk.sts p
  raiseErr (recordFirst s b 0x6C 0 0 fun s =>
    ((s.setRegN b 0x6C (2 ^ 31 + b2n scrub * 2 ^ 30 + 1)).setReg64 b 0x70 (addr - addr % 4096)).setReg64 b 0x78 s.ptc.toNat) b 0

/-! ## Page reads (R243) -/

/-- The order of request arrival. -/
def StashReq.key (r : StashReq) : Nat := r.arrival * 2 ^ 64 + r.id

/-- A request is among the 2,048 that the stack keeps in flight: the rest wait in arrival order. -/
def inFlight (x : Stash) (r : StashReq) : Bool := decide ((x.reqs.filter fun q => decide (q.key < r.key)).length < 2048)

/-- The bytes of a stash page (R242): 4,096, zero when erased. -/
def stashPage (s : State) (a : Nat) : List Byte := Mem.bytes s.stashMem a 4096

/-- The page index of a stash address in its stack. -/
def pageIx (a : Nat) : Nat := a % stashSize / 4096

/-- The page reads that blocks have served (R248). -/
def noteReads (s : State) (p first n : Nat) : State :=
  (List.range n).foldl (fun s i =>
    let x := s.stash p
    let blk := (first + i) / 8192
    s.setStash p { x with reads := FMap.put 0 x.reads blk (FMap.look 0 x.reads blk + 1) }) s

/-- STASH_PAGE_DECODED (R243): after recovery if needed; a page that cannot be decoded is delivered as read. -/
def stashPageDecoded (p req : Nat) (recovered uncorr : Bool) (s : State) : State :=
  let x := s.stash p
  match x.reqs.find? fun r => r.id == req && r.decoded.isNone && decide (r.arrival ≤ s.wall) with
  | none => s
  | some r =>
    if !inFlight x r then s
    else
      let data := stashPage s r.page
      let bytes := if uncorr then (List.range 4096).zip data |>.map fun (i, b) => Config.stashAsRead r.page i b else data
      let done : StashReq := { r with decoded := some s.wall, bytes := bytes }
      let s1 := noteReads (s.setStash p { x with reqs := x.reqs.map fun q => if q.id = req then done else q }) p (pageIx r.page) 1
      let s2 := if recovered || uncorr then s1.incReg (.sts p) 0x64 else s1
      if uncorr then stashUncorr s2 p r.page false else s2

/-- The order of R243 among decoded pages. -/
def StashReq.deliverKey (r : StashReq) : Nat := (r.decoded.getD 0) * 2 ^ 160 + r.key

/-- STASH_PAGE_DELIVER (R243): at most one page every 25.6 ns, when the external part has room for its 64 beats. -/
def stashPageDeliver (p : Nat) (s : State) : State :=
  let x := s.stash p
  match minOn? StashReq.deliverKey (x.reqs.filter fun r => r.decoded.isSome) with
  | none => s
  | some r =>
    let early := x.lastDeliver != 0 && decide (10 * (s.time.toNat - (x.lastDeliver - 1)) < 256)
    if early || decide (bufferRoom (s.core r.core) false < 64) then s
    else
      let beats := (List.range 64).map fun i : Nat =>
        ({ addr := r.dst + 64 * i, bytes := (r.bytes.drop (64 * i)).take 64, ready := s.wall + (if r.remote then 48 else 0), planned := false
           order := r.order, op := some r.op, beat := r.beat + i, fifo := r.feed } : RetBeat)
      (s.setStash p { x with reqs := x.reqs.filter (fun q => q.id != r.id), lastDeliver := s.time.toNat + 1 }).modCore r.core fun c =>
        { c with ret := c.ret ++ beats }

/-! ## Commands (R245, R261) -/

/-- A write of STS_CMD.OP: the command starts, or is refused while one runs. -/
def stsStart (op p : Nat) (s : State) : State :=
  let b := Blk.sts p
  let x := s.stash p
  if x.cmd.isSome then s.setRegN b 0x44 (setBits (s.regN b 0x44) 16 4 1)
  else
    let c : StsCmd := ⟨op, s.reg64 b 0x48 % 2 ^ 44, s.reg64 b 0x50 % 2 ^ 48, s.regN b 0x58⟩
    (s.setStash p { x with cmd := some c }).setRegN b 0x44 (2 ^ 31)

/-- A command ends: its status, and BLK_IRQ_CAUSE bit 0. -/
def stsEnd (s : State) (p err done : Nat) : State :=
  let b := Blk.sts p
  raiseIrq ((s.setStash p { s.stash p with cmd := none }).setRegN b 0x44 (err * 2 ^ 16 + done)) b 0

/-- The ranges and alignments of a command (R245, R249, R261). -/
def stsRangeOk (s : State) (p : Nat) (c : StsCmd) : Bool :=
  let n := 4096 * c.pages
  let stashOk := decide (c.saddr / stashSize = p) && decide (c.saddr % stashSize + n ≤ stashSize)
  c.pages != 0 &&
  (match c.op with
    | 3 => stashOk && c.saddr % 0x2000000 == 0 && c.pages % 8192 == 0
    | 5 => decide (p < 2) && decide (c.saddr % 2 ^ 22 + n ≤ 2 ^ 22) && hbmRangeOk s c.haddr n
    | _ => stashOk && hbmRangeOk s c.haddr n)

/-- A key after every request that has arrived: a command's accesses come last in their tick (log entry 143). -/
def lastKey (s : State) : Nat := (s.wall + 1) * 4096 * 2 ^ 72

/-- One granule of HBM for a command, with the errors that its read finds (R240); HBM_INJECT does not act on it (R260). -/
def stsGranule (s : State) (a n : Nat) (found : List WordError) : List Byte × State :=
  let (p, st, _, _) := hbmPlace s a
  (found.filter fun e => decide (a / 256 = e.addr / 256)).foldl (hbmFound p st a false) (hbmBytes s p st (lastKey s) a n, s)

/-- HBM bytes for a command, from a granule boundary: zero from a panel whose domain 9 is not ON (R406). -/
def stsHbm (found : List WordError) (s : State) (a n : Nat) : List Byte × State :=
  if !domOn s (hbmPlace s a).1 9 then (List.replicate n 0, s)
  else (byteParts n a n).foldl (fun acc e =>
    let (data, s1) := stsGranule acc.2 e.1 e.2 found
    (acc.1 ++ data, s1)) ([], s)

/-- Store to HBM for a command, from a granule boundary; discarded by a panel whose domain 9 is not ON (R406). -/
def stsToHbm (s : State) (a : Nat) (bytes : List Byte) : State :=
  if !domOn s (hbmPlace s a).1 9 then s
  else (byteParts bytes.length a bytes.length).foldl (fun s e =>
    let (p, st, _, _) := hbmPlace s e.1
    hbmStore s p st (lastKey s) e.1 ((bytes.drop (e.1 - a)).take e.2)) s

/-- The PWR error of a command that needs a panel's HBM while it is not ON (R406). -/
def stsPower (s : State) (c : StsCmd) : State :=
  let q := (hbmPlace s c.haddr).1
  if c.op != 3 && !domOn s q 9 then domainOffHost s q 9 else s

/-- A stash page is programmed. -/
def isProgrammed (s : State) (a : Nat) : Bool := FMap.look false (s.stash (stashPanel a)).programmed (pageIx a)

/-- Program one page. -/
def programPage (s : State) (a : Nat) (bytes : List Byte) : State :=
  let p := stashPanel a
  let x := s.stash p
  { s.setStash p { x with programmed := FMap.put false x.programmed (pageIx a) true } with stashMem := Mem.store s.stashMem a bytes }

/-- The pages of a logical block read as erased. -/
def eraseBlock (s : State) (p blk : Nat) : State :=
  let x := s.stash p
  let lo := 8192 * blk
  { s.setStash p { x with programmed := x.programmed.filter fun e => decide (e.1 < lo) || decide (lo + 8192 ≤ e.1) } with
    stashMem := Mem.forget s.stashMem (p * stashSize + blk * 0x2000000) 0x2000000 }

/-- The physical block of a logical one. -/
def physBlock (x : Stash) (blk : Nat) : Nat := match FMap.look 0 x.physical blk with
  | 0 => blk
  | n + 1 => n

/-- Physical blocks of a stack: 8,192 for the logical ones and 512 spares (R242). -/
def physBlocks : Nat := 8704

/-- Spare physical blocks left (R242, R247). -/
def Stash.spare (x : Stash) : Nat := x.freed.length + (physBlocks - x.nextSpare)

/-- Program-erase cycles of a physical block. -/
def wearOf (x : Stash) (ph : Nat) : Nat := FMap.look 0 x.wear ph

/-- The least worn spare: one never used, else the least worn of the others (R247, log entry 144). -/
def leastWorn (x : Stash) : Option Nat := if x.nextSpare < physBlocks then some x.nextSpare else minOn? (wearOf x) x.freed

/-- A logical block is mapped to a spare. -/
def mapTo (x : Stash) (blk ph : Nat) : Stash :=
  { x with physical := FMap.put 0 x.physical blk (ph + 1), freed := x.freed.erase ph, nextSpare := Nat.max x.nextSpare (ph + 1) }

/-- Map a logical block to a spare, its old physical block retired; false when none is left (R247). -/
def useSpare (s : State) (p blk : Nat) : State × Bool :=
  let x := s.stash p
  match leastWorn x with
  | none => (s, false)
  | some ph => (s.setStash p (mapTo x blk ph), true)

/-- An erased logical block takes a program-erase cycle, and changes places with the least worn spare when that is less worn (R247,
log entry 144). -/
def takeCycle (x : Stash) (blk : Nat) : Stash :=
  let ph := physBlock x blk
  let x1 := { x with wear := FMap.put 0 x.wear ph (wearOf x ph + 1) }
  match leastWorn x1 with
  | none => x1
  | some other =>
    if wearOf x1 other < wearOf x1 ph then
      let y := mapTo x1 blk other
      { y with freed := y.freed ++ [ph] }
    else x1

/-- PROGRAM of pages i and on, `fuel` of them: the error, the pages completed, the state. -/
def stsProgramPages (c : StsCmd) (m : StsMedium) (found : List WordError) : Nat → Nat → State → Nat × Nat × State
  | 0, i, s => (0, i, s)
  | fuel + 1, i, s =>
    let a := c.saddr + 4096 * i
    if isProgrammed s a then (3, i, s)
    else if m = .verifyFail i then
      let p := stashPanel a
      let blk := a % stashSize / 0x2000000
      let (s1, ok) := useSpare s p blk
      if ok then (4, i, eraseBlock s1 p blk) else (7, i, s1)
    else
      let (data, s1) := stsHbm found s (c.haddr + 4096 * i) 4096
      stsProgramPages c m found fuel (i + 1) (programPage s1 a data)

/-- VERIFY of pages i and on, `fuel` of them: the error, the pages that agree, the state. -/
def stsVerifyPages (c : StsCmd) (m : StsMedium) (found : List WordError) : Nat → Nat → State → Nat × Nat × State
  | 0, i, s => (0, i, s)
  | fuel + 1, i, s =>
    if m = .uncorr i then (5, i, s)
    else
      let (data, s1) := stsHbm found s (c.haddr + 4096 * i) 4096
      if data = stashPage s (c.saddr + 4096 * i) then stsVerifyPages c m found fuel (i + 1) s1 else (6, i, s1)

/-- The first page of n that cannot be decoded. -/
def badPage (m : StsMedium) (n : Nat) : Option Nat := match m with
  | .uncorr i => if i < n then some i else none
  | _ => none

/-- ERASE of whole logical blocks: each takes a program-erase cycle (R245, R247). -/
def stsEraseBlocks (p : Nat) (c : StsCmd) (s : State) : State :=
  (List.range (c.pages / 8192)).foldl (fun s i =>
    let blk := c.saddr % stashSize / 0x2000000 + i
    let s1 := eraseBlock s p blk
    s1.setStash p (takeCycle (s1.stash p) blk)) s

/-- A block is due for a scrub (R248): 24 h of TIME after its latest, or once it has served 1,000,000 page reads since. -/
def scrubDue (s : State) (p blk : Nat) : Bool :=
  let x := s.stash p
  decide (FMap.look 0 x.scrubbed blk + 86400000000000 ≤ s.time.toNat) || decide (1000000 ≤ FMap.look 0 x.reads blk)

/-- STS_COMMAND_DONE (R245): the running command's effect and its end. -/
def stsCommandDone (p : Nat) (m : StsMedium) (found : List WordError) (s0 : State) : State :=
  match (s0.stash p).cmd with
  | none => s0
  | some c =>
    if !stsRangeOk s0 p c then stsEnd s0 p 2 0
    else
      let s := stsPower s0 c
      match c.op with
      | 1 =>
        let n := (badPage m c.pages).getD c.pages
        stsEnd (stsToHbm (noteReads s p (pageIx c.saddr) n) c.haddr (Mem.bytes s.stashMem c.saddr (4096 * n))) p (if n < c.pages then 5 else 0) n
      | 2 =>
        let (err, done, s1) := stsProgramPages c m found c.pages 0 s
        stsEnd s1 p err done
      | 3 => stsEnd (stsEraseBlocks p c s) p 0 c.pages
      | 4 =>
        let (err, done, s1) := stsVerifyPages c m found c.pages 0 s
        stsEnd (noteReads s1 p (pageIx c.saddr) (done + b2n (err = 6))) p err done
      | _ =>
        let n := (badPage m c.pages).getD c.pages
        stsEnd (stsToHbm s c.haddr (Mem.bytes s.bbMem (2 ^ 25 * p + c.saddr % 2 ^ 25) (4096 * n))) p (if n < c.pages then 5 else 0) n

/-- STASH_BLOCK_SCRUB (R248): every page of a block is read; a weak one is relocated when a spare is left. -/
def stashBlockScrub (p block : Nat) (weak : Bool) (uncorrPage : Option Nat) (s : State) : State :=
  if 8192 ≤ block then s
  else
    let x := s.stash p
    let s1 := s.setStash p { x with scrubbed := FMap.put 0 x.scrubbed block s.time.toNat, reads := FMap.put 0 x.reads block 0 }
    let s2 := if weak then (useSpare s1 p block).1 else s1
    match uncorrPage with
    | some i => stashUncorr s2 p (p * stashSize + block * 0x2000000 + 4096 * (i % 8192)) true
    | none => s2

/-- The black-box copy to the stack of panel p is abandoned (R472). -/
def abandonBox (s : State) (p : Nat) : State :=
  if s.flt.box.any (·.panel == p) then raiseErr { s with flt := { s.flt with box := s.flt.box.filter (·.panel != p) } } .flt 6 else s

/-- The page reads that wait at the stash of panel p whose domain leaves ON complete with zero data (R406); a black-box copy to it is
abandoned. -/
def stashLost (s0 : State) (p : Nat) : State :=
  let s := abandonBox s0 p
  let x := s.stash p
  x.reqs.foldl (fun s r => zeroBeats (domainOff s r.core p 10) r.core r.op false r.feed r.dst r.beat 64) (s.setStash p { x with reqs := [] })

/-- STASH_PAGE_DECODED. -/
def execStashPageDecoded (p req : Nat) (recovered uncorr : Bool) (s : State) := act s fun s => onBlock s (.sts p) (stashPageDecoded p req recovered uncorr)
/-- STASH_PAGE_DELIVER. -/
def execStashPageDeliver (p : Nat) (s : State) := act s fun s => onBlock s (.sts p) (stashPageDeliver p)
/-- STS_READ. -/
def execStsRead (p : Nat) (s : State) := actBy 0 s fun s => onBlock s (.sts p) (stsStart 1 p)
/-- STS_PROGRAM. -/
def execStsProgram (p : Nat) (s : State) := actBy 0 s fun s => onBlock s (.sts p) (stsStart 2 p)
/-- STS_ERASE. -/
def execStsErase (p : Nat) (s : State) := actBy 0 s fun s => onBlock s (.sts p) (stsStart 3 p)
/-- STS_VERIFY. -/
def execStsVerify (p : Nat) (s : State) := actBy 0 s fun s => onBlock s (.sts p) (stsStart 4 p)
/-- STS_BB_READ. -/
def execStsBbRead (p : Nat) (s : State) := actBy 0 s fun s => onBlock s (.sts p) (stsStart 5 p)
/-- STS_COMMAND_DONE. -/
def execStsCommandDone (p : Nat) (m : StsMedium) (found : List WordError) (s : State) := act s fun s => onBlock s (.sts p) (stsCommandDone p m found)
/-- STASH_BLOCK_SCRUB. -/
def execStashBlockScrub (p block : Nat) (weak : Bool) (uncorrPage : Option Nat) (s : State) :=
  act s fun s => onBlock s (.sts p) (stashBlockScrub p block weak uncorrPage)

end Sys2Proof.Machine
end

