-- ==== Sys2Proof/Machine/Power.lean ====
section
/-! DEFINITION. Power domains, the power limit, and the thermal and power response (R402 to R414, R416 to R418, R478, R495). -/

namespace Sys2Proof.Machine

/-! ## Power domains (R402 to R405) -/

/-- The enabled cores of course pair i of panel p. -/
def pairCores (s : State) (p i : Nat) : List Nat :=
  ((List.range 36).filter fun j => slotEnabled s p (36 * i + j)).map fun j => coreKey p (36 * i + j)

/-- A core as its domain comes on: zero skein, IDLE stream, empty region slots, plane sets and counters, STR_ENG_EN 0. -/
def freshCore (s : State) (k : Nat) : State :=
  let s1 := s.setCore k {}
  resetBlock { s1 with skein := Mem.forget s1.skein (skAddr k 0) 0x400000 } (.str (k / 288) (k % 288)) 0x10000 fun _ => true

/-- The links of panel p are flushed and then DISABLED, and its packet buffers are empty. -/
def linksOff (s : State) (p : Nat) : State :=
  let s1 := (List.range 4).foldl (fun s j =>
    let l := 4 * p + j
    if (s.link l).st = .disabled then s
    else
      let s2 := flushLink s l
      (s2.setLink l {}).setRegN (plyBlk l) 0x40 (setBits (s2.regN (plyBlk l) 0x40) 0 1 0)) s
  { s1 with niBufs := FMap.put 0 s1.niBufs p 0 }

/-- The harts of panel p in reset. -/
def hartsInReset (s : State) (p : Nat) : State :=
  { s with harts := (List.range 4).foldl (fun m h => FMap.put 0 m (4 * p + h) 0) s.harts }

/-- Domain i of panel p reaches ON (R403). -/
def domainOn (s : State) (p i : Nat) : State :=
  if i < 8 then (pairCores s p i).foldl freshCore s
  else if i = 9 then [0, 1, 2].foldl (fun s st => enterFree (s.setHbmStack p st { s.hbmStack p st with freeSince := s.time.toNat, freeRefs := 0 }) p st) s
  else if i = 11 then hartsInReset s p
  else s

/-- Domain i of panel p reaches OFF (R403): HBM and stash contents are kept. -/
def domainLost (s : State) (p i : Nat) : State :=
  if i < 8 then freeBufs ((pairCores s p i).foldl freshCore s)
  else if i = 8 then linksOff s p
  else if i = 11 then { hartsInReset s p with sram := Mem.forget s.sram (0x200000 * p) 0x200000 }
  else s

/-- What is on its way to core k is discarded: the beats of other cores, and what it has still to land itself. -/
def coreLost (i : Nat) (s0 : State) (k : Nat) : State :=
  let s := dropForCore s0 k
  let c := s.core k
  let p := k / 288
  let sent := c.landings ++ c.collBuf
  let own := c.ret ++ c.zeroQ ++ c.hostQ
  let s1 := s.setCore k { c with landings := [], collBuf := [], ret := [], zeroQ := [], hostQ := [] }
  let s2 := sent.foldl (fun s l => domainOff s ((physOf s (l.src.toNat % 2 ^ 31)).getD k) p i) s1
  let s3 := own.foldl (fun s b => match b.link with
    | some l => if b.beat = 3 then freeRx s l 0 1 else s
    | none => s) s2
  let s4 := if own.any fun b => b.op.isSome then domainOff s3 k p i else s3
  if own.any fun b => b.link.isSome then domainOffHost s4 p i else s4

/-- The accesses on their way to domain i of panel p as it leaves ON: they complete with zero data, and what they should have written is
discarded (R406). -/
def accessesLost (s : State) (p i : Nat) : State :=
  if i = 9 then hbmLost s p
  else if i = 10 then stashLost s p
  else if i < 8 then (pairCores s p i).foldl (coreLost i) s
  else s

/-- DOMAIN_REACHED: a domain ends STARTING or STOPPING; the stash interface only after its running command. -/
def domainReached (p i : Nat) (s : State) : State :=
  let d := s.dom p i
  if s.fuses.panels ≤ p ∨ 12 ≤ i then s
  else match d.st with
    | .starting => domainOn (s.setDom p i { st := if d.pendOff then .stopping else .on }) p i
    | .stopping =>
      if i = 10 ∧ (s.stash p).cmd.isSome then s
      else domainLost (s.setDom p i { st := if d.pendOn then .starting else .off }) p i
    | _ => s

/-- Why a write of EN = 0 is refused (R405). -/
def domRefused (s : State) (p i : Nat) : Bool :=
  s.castSt == .released
  || (decide (i < 8) && (List.range 36).any fun j =>
        let st := (s.core (coreKey p (36 * i + j))).stream.st
        st == .armed || st == .running)
  || (i == 11 && (p == 0 || (List.range 11).any fun j => (s.dom p j).st != .off))

/-- PWR_DOM_WRITE: a write of PWR_DOMi.EN (R404, R405). EN changes only with a write that has an effect. -/
def pwrDomWrite (p i : Nat) (en : Bool) (s : State) : State :=
  let b := Blk.pwr p
  let d := s.dom p i
  let store (s : State) : State := s.setRegN b (0x40 + 4 * i) (b2n en * 2 ^ 31)
  if 12 ≤ i then s
  else if en then
    match d.st with
    | .off => store (s.setDom p i { st := .starting })
    | .stopping => store (s.setDom p i { d with pendOn := true })
    | _ => s
  else if domRefused s p i then raiseErr s b 0
  else match d.st with
    | .starting => store (s.setDom p i { d with pendOff := true })
    | .on => accessesLost (store (s.setDom p i { st := .stopping })) p i
    | .stopping => store (s.setDom p i { d with pendOn := false })
    | .off => s

/-! ## Thermal response (R411, R412, R414) -/

/-- A panel's thermal monitor. -/
def State.thm (s : State) (p : Nat) : Thm := FMap.look {} s.thms p

/-- Replace a thermal monitor. -/
def State.setThm (s : State) (p : Nat) (x : Thm) : State := { s with thms := FMap.put {} s.thms p x }

/-- DUTY: the larger of the two reasons'; 0 outside THROTTLE (R413). -/
def Thm.duty (x : Thm) : Nat := Nat.max x.dutyT x.dutyP

/-- THM_THRESH.THROTTLE in units of the reading. -/
def throttleAt (s : State) (p : Nat) : Int := 8 * (bits (s.regN (.thm p) 0x44) 16 7 : Int)
/-- THM_THRESH.WARN in units of the reading. -/
def warnAt (s : State) (p : Nat) : Int := 8 * ((s.regN (.thm p) 0x44 % 2 ^ 7 : Nat) : Int)

/-- A monitor throttles for one reason: DUTY of it starts at 1. Frames count from the entry into THROTTLE. -/
def throttle (s : State) (p : Nat) (power : Bool) : State :=
  let x := s.thm p
  let x1 := if power then { x with dutyP := 1 } else { x with dutyT := 1 }
  if x.duty = 0 then raiseIrq (s.setThm p { x1 with entry := s.time.toNat, frames := 0, updates := 0 }) (.thm p) 1
  else s.setThm p x1

/-- Platform events of a sensor for the thresholds that a value has crossed (R478). -/
def crossed (s : State) (sensor : Nat) (old new : Int) (limits : List Int) : State :=
  limits.foldl (fun s l => if decide (l ≤ old) != decide (l ≤ new) then platformEvent s sensor else s) s

/-- THM_CRIT at 840 eighths of a degree (R414): the request of its onset is not withdrawn. -/
def critical (p : Nat) (s : State) : State :=
  let x := s.thm p
  if x.reading < 840 then s.setThm p { x with crit := false }
  else
    let s1 := raiseErr (s.setThm p { x with crit := true }) (.thm p) 0
    if x.crit then s1 else raiseHold s1 4 p true 0 [.critical p]

/-- THM_SAMPLE: the highest reading, in 0.125 degrees; THM_TEMP is updated whenever TIME mod 10,000 is 0, and at no other time (R411). -/
def thmSample (p : Nat) (r : Int) (s : State) : State :=
  if s.fuses.panels ≤ p ∨ r < -1024 ∨ 1023 < r ∨ s.time.toNat % 10000 ≠ 0 then s
  else
    let old := (s.thm p).reading
    let s1 := crossed (s.setThm p { s.thm p with reading := r }) (p + 1) old r [warnAt s p, 840]
    let s2 := if old < warnAt s p ∧ warnAt s p ≤ r then raiseIrq s1 (.thm p) 0 else s1
    critical p (if throttleAt s p ≤ r ∧ (s2.thm p).dutyT = 0 then throttle s2 p false else s2)

/-- THERMAL_FRAME_START: frame k starts 20k µs after the entry into THROTTLE. -/
def thermalFrameStart (p : Nat) (s : State) : State :=
  let x := s.thm p
  let start := x.entry + 20000 * x.frames
  if x.duty = 0 ∨ x.withdrawAt.isSome ∨ s.time.toNat < start then s
  else raiseHold (s.setThm p { x with frames := x.frames + 1, withdrawAt := some (start + 2500 * x.duty) }) 4 p true 0 [.thermal p]

/-- THERMAL_WITHDRAW: DUTY × 2.5 µs into the frame the request ends, and its item arrives (R94). -/
def thermalWithdraw (p : Nat) (s : State) : State :=
  let x := s.thm p
  match x.withdrawAt with
  | some t => if t ≤ s.time.toNat then markItems (s.setThm p { x with withdrawAt := none }) fun _ it => decide (it = .thermal p) else s
  | none => s

/-- A DUTY at its update: up at or above the limit, at most 6; down at or below the limit less its margin. -/
def nextDuty (d : Nat) (high low : Bool) : Nat :=
  if d = 0 then 0 else if high then Nat.min (d + 1) 6 else if low then d - 1 else d

/-- DUTY_UPDATE: the end of every 1 ms in THROTTLE, with the latest reading and power (R412, R413). -/
def dutyUpdate (p : Nat) (s : State) : State :=
  let x := s.thm p
  let w := s.regN .gov 0x48
  let limit := s.regN .gov 0x40 % 2 ^ 13
  if x.duty = 0 ∨ s.time.toNat < x.entry + 1000000 * (x.updates + 1) then s
  else s.setThm p { x with
    updates := x.updates + 1
    dutyT := nextDuty x.dutyT (decide (throttleAt s p ≤ x.reading)) (decide (x.reading ≤ throttleAt s p - 24))
    dutyP := nextDuty x.dutyP (decide (limit ≤ w)) (decide (100 * w ≤ 97 * limit)) }

/-! ## Power response (R409, R413, R479) -/

/-- PWR_LIMIT_WRITE: PWR_LEVEL.NEXT follows at once (`nextLevel`). -/
def pwrLimitWrite (w : Word) (s : State) : State := s.writeReg .gov 0x40 w

/-- PWR_MEASURE: the mean power in W; above PWR_LIMIT every monitor is squeezed. -/
def pwrMeasure (watts : Nat) (s : State) : State :=
  if 2 ^ 13 ≤ watts then s
  else
    let limit : Nat := s.regN .gov 0x40 % 2 ^ 13
    let s1 := crossed (s.setRegN .gov 0x48 watts) 9 (s.regN .gov 0x48) watts [(limit : Int) + 1]
    if limit < watts then
      let fresh := (List.range s.fuses.panels).filter fun p => (s1.thm p).dutyP == 0
      let s2 := fresh.foldl (fun s p => throttle s p true) s1
      if fresh.isEmpty then s2 else raiseIrq s2 .gov 0
    else s1

/-- THERMTRIP (R414, R495): the comparators need VIO and V3P3, and nothing else. -/
def thermtrip (p : Nat) (s : State) : State :=
  if s.fuses.panels ≤ p ∨ s.pins.badRails.contains .vio ∨ s.pins.badRails.contains .v3p3 then s
  else { s with pins := { s.pins with thermtrip := true } }

/-- PWR_DOM_WRITE. -/
def execPwrDomWrite (p i : Nat) (en : Bool) (s : State) := actBy 0 s fun s => onBlock s (.pwr p) (pwrDomWrite p i en)
/-- DOMAIN_REACHED. -/
def execDomainReached (p i : Nat) (s : State) := act s (domainReached p i)
/-- PWR_LIMIT_WRITE. -/
def execPwrLimitWrite (w : Word) (s : State) := actBy 0 s (pwrLimitWrite w)
/-- THM_SAMPLE. -/
def execThmSample (p : Nat) (reading : Int) (s : State) := act s (thmSample p reading)
/-- THERMAL_FRAME_START. -/
def execThermalFrameStart (p : Nat) (s : State) := act s (thermalFrameStart p)
/-- THERMAL_WITHDRAW. -/
def execThermalWithdraw (p : Nat) (s : State) := act s (thermalWithdraw p)
/-- DUTY_UPDATE. -/
def execDutyUpdate (p : Nat) (s : State) := act s (dutyUpdate p)
/-- PWR_MEASURE. -/
def execPwrMeasure (watts : Nat) (s : State) := act s (pwrMeasure watts)
/-- THERMTRIP: independent of firmware, of every clock and of PERST_N. -/
def execThermtrip (p : Nat) (s : State) : Host.Outcome State Fault Refusal := .next (thermtrip p s)

end Sys2Proof.Machine
end

