-- ==== Sys2Proof/Machine/Boot.lean ====
section
/-! DEFINITION. Reset, secure boot, the topology table, loading and starting a pattern, and swatch records (R109, R110, R220,
R420 to R428, R438, R442 to R447, R454, R490, R493). -/

namespace Sys2Proof.Machine

/-! ## Reset (R420, R490, R493) -/

/-- What a stash stack keeps without power. -/
def Stash.kept (x : Stash) : Stash :=
  { programmed := x.programmed, freed := x.freed, wear := x.wear, reads := x.reads, physical := x.physical, nextSpare := x.nextSpare
    bbSeq := x.bbSeq, bbLast := x.bbLast, bbValid := x.bbValid }

/-- The package after PERST_N deassertion with the straps sampled: everything at reset, but the stash contents, the fuses, and
what lies outside the package. -/
def powerOn (straps : Straps) (s : State) : State :=
  { State.reset with
    pending := s.pending, fuses := s.fuses, stashMem := s.stashMem, bootMem := s.bootMem, bbMem := s.bbMem, hostMem := s.hostMem, sent := s.sent
    stashes := s.stashes.map fun e => (e.1, e.2.kept)
    pins := { thermtrip := s.pins.thermtrip, badRails := s.pins.badRails, straps := straps, spoiled := !s.pins.badRails.isEmpty } }

/-- PERST_N_DEASSERT. -/
def perstNDeassert (straps : Straps) (s : State) : State := if s.pins.perst then powerOn straps s else s

/-- A stash controller ends a running PROGRAM or ERASE at the assertion of PERST_N: the page or block in progress is finished,
and no other is started (R493). How far the command has come is open. -/
def stashCut (s : State) (p : Nat) : State :=
  match (s.stash p).cmd with
  | none => s
  | some c =>
    let n := Config.stsProgress p s.time.toNat
    let s1 := if !stsRangeOk s p c then s
      else match c.op with
      | 2 => (stsProgramPages c .ok [] (Nat.min n c.pages) 0 s).2.2
      | 3 => stsEraseBlocks p { c with pages := 8192 * Nat.min n (c.pages / 8192) } s
      | _ => s
    s1.setStash p { s1.stash p with cmd := none }

/-- A black-box copy that is cut short at the assertion of PERST_N: pages of records are there, and its digest is not (R249, R493). -/
def boxCut (s : State) (b : BoxCopy) : State :=
  let at_ := 2 ^ 25 * b.panel + 2 ^ 22 * b.slot
  let n := Config.boxProgress b.panel s.time.toNat % (ceilDiv b.records.length 4096 + 1)
  { s with bbMem := Mem.store (Mem.forget s.bbMem at_ (2 ^ 22)) (at_ + 4096) (b.records.take (4096 * n)) }

/-- PERST_N_ASSERT. -/
def perstNAssert (s : State) : State :=
  let s1 := if s.pins.perst then s else s.flt.box.foldl boxCut ((List.range s.fuses.panels).foldl stashCut s)
  { s1 with pins := { s1.pins with perst := true, spoiled := false }, flt := { s1.flt with box := [] } }

/-! ## Firmware images (R423, R424) -/

/-- The little-endian number at an offset of an image that `rd` reads. -/
def imgNat (rd : Nat → Nat → List Byte) (off n : Nat) : Nat := leNat (rd off n)

/-- Length of the signature block. -/
def sigLen : Nat := 17044

/-- The length of an image by its header. -/
def imgLen (rd : Nat → Nat → List Byte) : Nat := 256 + imgNat rd 12 4 + sigLen

/-- The signed data of an image. -/
def imgSigned (rd : Nat → Nat → List Byte) : List Byte := rd 0 (256 + imgNat rd 12 4)

/-- Check 1. -/
def imgFormatOk (rd : Nat → Nat → List Byte) : Bool :=
  imgNat rd 0 4 == 0x57464B4E && imgNat rd 4 4 == 1 && imgNat rd 11 1 == 0 && imgNat rd 20 236 == 0
  && imgNat rd 12 4 % 64 == 0 && decide (imgLen rd ≤ 1572864)

/-- Check 2. -/
def imgKeysOk (s : State) (rd : Nat → Nat → List Byte) : Bool :=
  let sig := 256 + imgNat rd 12 4
  sha384 (rd sig 388) == s.fuses.rsaKeyHash && sha384 (rd (sig + 772) 48) == s.fuses.slhKeyHash

/-- Check 4. -/
def imgRsaOk (rd : Nat → Nat → List Byte) : Bool :=
  let sig := 256 + imgNat rd 12 4
  rsaVerify (rd sig 384) (rd (sig + 384) 4) (rd (sig + 388) 384) (imgSigned rd)

/-- Check 5. -/
def imgSlhOk (rd : Nat → Nat → List Byte) : Bool :=
  let sig := 256 + imgNat rd 12 4
  slhVerify (rd (sig + 772) 48) (rd (sig + 820) 16224) (imgSigned rd)

/-- BOOT_COPY_CHECK (R424): 0, or the code of the first check that fails. -/
def imgCheck (s : State) (rd : Nat → Nat → List Byte) : Nat :=
  if !imgFormatOk rd then 1
  else if !imgKeysOk s rd then 2
  else if imgNat rd 10 1 < s.fuses.svnMin then 3
  else if !imgRsaOk rd then 4
  else if !imgSlhOk rd then 5
  else 0

/-- The copy in a boot slot. -/
def slotRead (s : State) (slot off n : Nat) : List Byte := Mem.bytes s.bootMem (2 ^ 21 * slot + off) n

/-- The host image in the local SRAM of panel 0 (R425). -/
def sramRead (s : State) (off n : Nat) : List Byte := Mem.bytes s.sram off n

/-! ## Boot stages (R421, R422, R425, R426) -/

/-- BOOT_STAGE.STAGE changes: BLK_IRQ_CAUSE bit 0 for HOST_WAIT, READY and FAILED, and the state sensor 11 (R454, R478). -/
def setStage (s : State) (st : Stage) : State :=
  if s.boot.stage = st then s
  else
    let s1 := platformEvent { s with boot := { s.boot with stage := st } } 11
    if st = .hostWait ∨ st = .ready ∨ st = .failed then raiseIrq s1 .boot 0 else s1

/-- BOOT_STAGE.CODE. -/
def setCode (s : State) (c : Nat) : State := { s with boot := { s.boot with code := c } }

/-- Harts of a panel run. -/
def hartsRun (s : State) (p n : Nat) : State :=
  { s with harts := (List.range n).foldl (fun m h => FMap.put 0 m (4 * p + h) 1) s.harts }

/-- The firmware of a verified image runs. -/
def runImage (s : State) (source : Nat) (rd : Nat → Nat → List Byte) : State :=
  setStage { s with boot := { s.boot with source := source, svn := imgNat rd 10 1, version := imgNat rd 8 2, image := imgSigned rd } } .fwStart

/-- The boot ROM tries the slots in order. -/
def tryBootSlots (s : State) : List Nat → State
  | [] => setStage s .hostWait
  | k :: ks =>
    let c := imgCheck s (slotRead s k)
    if c = 0 then runImage s k (slotRead s k) else tryBootSlots (setCode s c) ks

/-- BOOT_ROM, on hart 0 of the lead complex. -/
def bootRom (s : State) : State :=
  if s.boot.stage ≠ .rom then s
  else
    let s1 := hartsRun s 0 1
    if s.pins.straps.hostBoot then setStage s1 .hostWait else tryBootSlots s1 [0, 1, 2, 3]

/-- HOSTLOAD: a write of BOOT_CTRL.HOSTLOAD. -/
def hostload (s : State) : State :=
  if s.boot.stage ≠ .hostWait then s.countNoEffect .boot
  else
    let c := imgCheck s (sramRead s)
    if c = 0 then runImage s 4 (sramRead s) else setCode s c

/-- Every domain of every present panel is ON (R426). -/
def allDomainsOn (s : State) : State :=
  (List.range s.fuses.panels).foldl (fun s p => (List.range 12).foldl (fun s i =>
    if domOn s p i then s
    else domainOn ((s.setDom p i { st := .on }).setRegN (.pwr p) (0x40 + 4 * i) (2 ^ 31)) p i) s) s

/-- Each panel's firmware is in its local SRAM (R426). -/
def copyFirmware (s : State) : State :=
  (List.range s.fuses.panels).foldl (fun s p => { s with sram := Mem.store s.sram (2 ^ 21 * p) ((Config.panelFirmware s.boot.image p).take (2 ^ 21)) }) s

/-- FW_BRINGUP (R426): READY, or FAILED with its code. -/
def fwBringup (r : Bringup) (s : State) : State :=
  if s.boot.stage ≠ .fwStart then s
  else match r with
    | .ok repaired =>
      let s1 := copyFirmware (lockCrossings true (lanesRepaired repaired (setVcore (allDomainsOn s))))
      let s2 := (List.range s.fuses.panels).foldl (fun s p => hartsRun s p 4) s1
      setStage { s2 with mgmt := { s2.mgmt with readyAt := some s.time.toNat } } .ready
    | .hbmTrain => setStage (setCode s 0x10) .failed
    | .stashMount => setStage (setCode s 0x11) .failed
    | .selfTest => setStage (setCode s 0x12) .failed

/-! ## The topology table (R427, R428) -/

/-- An entry of a topology table. -/
structure TopoEntry where
  link : Nat
  flags : Nat
  grace : Nat
  ack : Nat
  zero : Nat
  peer : Nat
deriving DecidableEq, Repr

/-- Entry n of the table at device address a. -/
def topoEntry (s : State) (a n : Nat) : TopoEntry :=
  let e := a + 32 + 16 * n
  ⟨Mem.nat s.hbm e 1, Mem.nat s.hbm (e + 1) 1, Mem.nat s.hbm (e + 2) 1, Mem.nat s.hbm (e + 3) 1, Mem.nat s.hbm (e + 4) 4, Mem.nat s.hbm (e + 8) 8⟩

/-- The error code of an entry; `before` are the links that earlier entries name. -/
def topoEntryErr (s : State) (before : List Nat) (e : TopoEntry) : Nat :=
  if 4 ≤ e.flags ∨ e.zero ≠ 0 then 1
  else if !linkPresent s e.link then 3
  else if before.contains e.link then 4
  else if e.grace = 0 ∨ 250 < e.grace ∨ e.ack = 0 ∨ 64 < e.ack ∨ (bitOf e.flags 0 ∧ e.peer = 0) then 5
  else 0

/-- The first bad entry and its code. -/
def topoScan (s : State) : List Nat → Nat → List TopoEntry → Option (Nat × Nat)
  | _, _, [] => none
  | before, i, e :: es =>
    let c := topoEntryErr s before e
    if c = 0 then topoScan s (before ++ [e.link]) (i + 1) es else some (i, c)

/-- The header of a table is well formed. -/
def topoHeaderOk (s : State) (a : Nat) : Bool :=
  Mem.nat s.hbm a 4 == 0x4F504F54 && Mem.nat s.hbm (a + 4) 4 == 1 && decide (Mem.nat s.hbm (a + 8) 4 ≤ 32)
  && Mem.nat s.hbm (a + 12) 4 == 0 && Mem.nat s.hbm (a + 24) 8 == 0

/-- The refusal of a table: entry and code. -/
def topoRefusal (s : State) (a : Nat) (es : List TopoEntry) : Option (Nat × Nat) :=
  if !topoHeaderOk s a then some (0, 1)
  else if Mem.nat s.hbm (a + 16) 8 ≠ s.fuses.selfId then some (0, 2)
  else match topoScan s [] 0 es with
    | some e => some e
    | none => if s.castSt = .arrived ∨ s.castSt = .released then some (0, 6) else none

/-- The PLY_CTRL word of an entry. -/
def TopoEntry.ctrl (e : TopoEntry) (en : Bool) : Word :=
  BitVec.ofNat 32 (e.grace * 2 ^ 24 + e.ack * 2 ^ 16 + b2n (bitOf e.flags 1) * 8 + b2n en)

/-- An entry is applied to its link. -/
def applyTopo (s : State) (e : TopoEntry) : State :=
  let b := plyBlk e.link
  let en := bitOf e.flags 0
  if !writable s b then s
  else if (s.link e.link).st = .up ∧ s.reg b 0x40 = e.ctrl en ∧ s.reg64 b 0x48 = e.peer then s
  else plyEnWrite e.link (e.ctrl en) ((plyEnWrite e.link (e.ctrl false) s).setReg64 b 0x48 e.peer)

/-- TOPO_APPLY: a write of BOOT_CTRL.TOPO_APPLY. -/
def topoApply (s : State) : State :=
  if s.boot.stage ≠ .ready then s.countNoEffect .boot
  else
    let a := s.reg64 .boot 0x50
    let es := (List.range (Nat.min (Mem.nat s.hbm (a + 8) 4) 32)).map (topoEntry s a)
    match topoRefusal s a es with
    | some (i, c) => raiseErr { s with boot := { s.boot with topoErr := c, topoEntry := i } } .boot 1
    | none => raiseIrq (es.foldl applyTopo { s with boot := { s.boot with topoErr := 0, topoEntry := 0 } }) .boot 1

/-! ## Loading a pattern (R442, R445, R446) -/

/-- A core after LOAD_BEGIN. -/
def Core.loadBegin (c : Core) : Core :=
  { clearArray c with regions := [], tags := [], counters := [], istSlice := 0, stream := { c.stream with waiting := none } }

/-- LOAD_BEGIN: a write of BOOT_CTRL.LOAD_BEGIN. -/
def loadBegin (s : State) : State :=
  if !allIdle s ∨ s.castSt = .arrived ∨ s.castSt = .released ∨ s.bind.isSome then raiseErr s .boot 0
  else
    let s1 := (allCores s).foldl (fun s k => (s.modCore k Core.loadBegin).zeroRegs (strBlk k) [0x48, 0x90, 0x94, 0x98, 0x9C]) s
    let f := s1.flt
    ({ s1 with shared := [], boot := { s1.boot with loaded := false, loading := true }
               flt := { f with first := none, istTable := [], istRuns := [], istOpen := [] } }).setRegN .flt 0x74 0

/-- The serving parameters at device address a, with placement offset o (R438). -/
def readServing (s : State) (a o cores : Nat) : SrvParams :=
  let w (off : Nat) : Nat := Mem.nat s.hbm (a + off) 4
  let d (off : Nat) : Nat := Mem.nat s.hbm (a + off) 8
  let charts := d 96 + o
  let models := d 104 + o
  { forecasting := w 0 == 1, slots := w 4, prefillTok := w 8, tpp := w 12, pps := w 16, vocab := w 20, eos := w 24, kMax := w 28
    draftMax := w 32, prefillRate := w 36, baseId := d 48, slotTable := d 56 + o, stepRecords := d 64 + o, motifTable := d 72 + o
    promptArea := d 80 + o, promptSize := d 88
    stepCharts := (List.range cores).map fun v => Mem.nat s.hbm (charts + 8 * v) 8
    models := (List.range (w 44)).map fun i =>
      let m := models + 32 * i
      let n (off len : Nat) : Nat := Mem.nat s.hbm (m + off) len
      { chart := n 0 8, stride := n 8 4, cores := n 12 2, maxSeries := n 14 2, inBytes := n 16 4, outBytes := n 20 4, weights := n 24 8 }
    requestTable := d 112 + o, fcIn := d 120 + o, fcInLen := d 128, fcOut := d 136 + o, fcOutLen := d 144 }

/-- The pools of a serving section: address and page count. -/
def readPools (s : State) (a o : Nat) : List (Nat × Nat) :=
  (List.range (Mem.nat s.hbm (a + 40) 4)).map fun i => (Mem.nat s.hbm (a + 160 + 16 * i) 8 + o, Mem.nat s.hbm (a + 168 + 16 * i) 4)

/-- Check 5 of LOAD_DONE. -/
def servingOk (s : State) (a : Nat) (p : SrvParams) (pools : List (Nat × Nat)) (cores : Nat) : Bool :=
  let inAll (off len : Nat) : Bool := (List.range (ceilDiv cores 256)).all fun q => hbmRangeOk s (q * 0x2000000000 + off) len
    && decide (off < 0x2000000000)
  decide (Mem.nat s.hbm a 4 ≤ 1) && (p.forecasting || (decide (1 ≤ p.slots) && decide (p.slots ≤ 65536)))
  && decide (1 ≤ p.tpp) && decide (p.tpp ≤ 1024) && decide (1 ≤ p.pps) && decide (p.pps ≤ 256)
  && decide (pools.length ≤ 256) && decide (p.draftMax ≤ 8) && decide (p.models.length ≤ 65535)
  && pools.all (fun e => e.1 % 0x10000 == 0 && decide (2 ≤ e.2) && decide (e.2 ≤ 16383) && hbmRangeOk s e.1 (0x10000 * e.2))
  && p.requestTable % 0x10000 == 0 && hbmRangeOk s p.requestTable 0x10000000 && hbmRangeOk s p.promptArea p.promptSize
  && (!p.forecasting || (inAll p.fcIn p.fcInLen && inAll p.fcOut p.fcOutLen
    && p.models.all fun m => decide (m.maxSeries * m.inBytes ≤ p.fcInLen) && decide (m.maxSeries * m.outBytes ≤ p.fcOutLen)))

/-- The virtual cores that the loader has given an engine: 0 to CORES − 1. -/
def usedCores (s : State) : Nat :=
  (List.range 2048).foldl (fun n v => match physOf s v with
    | some k => if s.regN (strBlk k) 0x48 = 0 then n else v + 1
    | none => n) 0

/-- The placement offset, as STR_HBM_BASE of virtual core 0 shows it (R444). -/
def placement (s : State) : Nat := match physOf s 0 with
  | some k => s.reg64 (strBlk k) 0x60
  | none => 0

/-- Entry i of a swatch table (R437), with the placement offset added to its addresses. -/
def readSwatch (s : State) (a o i : Nat) : Nat × Nat × Nat × Nat :=
  let e := a + 32 * i
  (Mem.nat s.hbm e 4, Mem.nat s.hbm (e + 8) 8 + o, Mem.nat s.hbm (e + 16) 8, Mem.nat s.hbm (e + 24) 8 + o)

/-- Firmware takes over the serving parameters: the request table is all FREE, and the motif table names the registered sets. -/
def takeServing (s : State) (p : SrvParams) (pools : List (Nat × Nat)) : State :=
  let hbm1 := Mem.forget (Mem.forget s.hbm p.requestTable 0x10000000) p.motifTable 0x80000
  let s1 := (s.srv.motifs.filter fun e => e.2.registered).foldl (fun s e => hbmPut s (p.motifTable + 8 * e.1) (leBytes 8 e.2.addr)) { s with hbm := hbm1 }
  let table : List (Nat × Pool) := pools.zipIdx.map fun e => (e.2, { addr := e.1.1, pages := e.1.2, free := List.range e.1.2, reserved := 0 })
  s1.modSrv fun r => { r with params := some p, pools := table.foldl (fun m e => FMap.put {} m e.1 e.2) [] }

/-- The code of the first check of LOAD_DONE that fails, or 0. -/
def loadErr (s : State) (t o cores : Nat) : Nat :=
  let w (off : Nat) : Nat := Mem.nat s.hbm (t + off) 4
  let serving := Mem.nat s.hbm (t + 80) 8
  let j := s.regN .boot 0x5C
  if !s.boot.loading then 1
  else if Mem.nat s.hbm (t + 88) 40 ≠ 0 ∨ 256 < w 72 ∨ w 76 = 0 ∨ 131072 < w 76 then 2
  else if !(allStacks s).all fun e => planned s e.1 e.2 then 3
  else if j % 4 ≠ s.clk.set ∨ bits j 8 4 ≠ nextLevel s then 4
  else if serving ≠ 0 ∧ !servingOk s serving (readServing s serving o cores) (readPools s serving o) cores then 5
  else if 1 < w 76 ∧ !s.regBit .fab 0x48 31 then 6
  else 0

/-- LOAD_DONE: a write of BOOT_CTRL.LOAD_DONE. -/
def loadDone (s : State) : State :=
  let t := s.reg64 .boot 0x60
  let o := placement s
  let cores := usedCores s
  let err := loadErr s t o cores
  let s1 := { s with boot := { s.boot with loading := false, loaded := err == 0, err := err } }
  if err ≠ 0 then raiseIrq (raiseErr s1 .boot 0) .boot 2
  else
    let swatches := Mem.nat s.hbm (t + 64) 8
    let n := if swatches = 0 then 0 else Mem.nat s.hbm (t + 72) 4
    let s2 := { s1 with boot := { s1.boot with
      patternDigest := Mem.bytes s.hbm t 32, weightDigest := Mem.bytes s.hbm (t + 32) 32
      swatches := (List.range n).map (readSwatch s swatches o) } }
    let serving := Mem.nat s.hbm (t + 80) 8
    let s3 := if serving = 0 then s2.modSrv fun r => { r with params := none }
      else takeServing s2 (readServing s serving o cores) (readPools s serving o)
    raiseIrq s3 .boot 2

/-- BOOT_START: a write of BOOT_CTRL.START; its GOs follow in the next plan clock period (`startGos`). -/
def bootStart (s : State) : State :=
  if !s.boot.loaded ∨ s.castSt ≠ .idle then raiseErr s .boot 0
  else castCtrlArrive { s with boot := { s.boot with startPending := true } }

/-! ## Swatches (R109, R110, R220) -/

/-- The input digest of the package. -/
def inputDigest (s : State) : List Byte :=
  sha3 ((allCores s).flatMap fun k =>
    let c := s.core k
    if c.digestN = 0 then [] else leBytes 4 (virtOf s k) ++ leBytes 4 c.digestN ++ c.digestH)

/-- The 16 seeds. -/
def seedBytes (s : State) : List Byte := (List.range 64).flatMap fun i => leBytes 4 (s.regN .plan (0x100 + 4 * i))

/-- The swatch for a step value. -/
def swatch (s : State) (step : DWord) : List Byte :=
  sha3 (s.boot.patternDigest ++ s.boot.weightDigest ++ inputDigest s ++ seedBytes s ++ leBytes 8 step.toNat)

/-- A swatch record. -/
def swatchRecord (s : State) (k ix : Nat) (step ptc : DWord) : List Byte :=
  let sat := s.regBit (.num (k / 288)) (0x80 + 4 * (k % 288 / 32)) (k % 288 % 32)
  let coll := s.regN .plan 0x68 != 0
  swatch s step ++ leBytes 8 step.toNat ++ leBytes 8 ptc.toNat ++ leBytes 4 ix ++ leBytes 4 (b2n sat + 2 * b2n coll) ++ leBytes 8 s.time.toNat

/-- STREAM_DRAINED: the segment of a core that has met its END is drained, and firmware writes the records of its buffers. -/
def streamDrained (k : Nat) (s : State) : State :=
  let c := s.core k
  match c.stream.ended with
  | none => s
  | some (step, ptc) =>
    if !drained c then s
    else
      let s1 := s.modStream k fun st => { st with ended := none }
      if !s.boot.loaded then s1
      else s.boot.swatches.zipIdx.foldl (fun s1 e =>
        if e.1.1 = virtOf s k then hbmPut s1 e.1.2.2.2 (swatchRecord s k e.2 step ptc) else s1) s1

/-- PERST_N_DEASSERT: the pin acts whatever the package does. -/
def execPerstNDeassert (straps : Straps) (s : State) : Host.Outcome State Fault Refusal := .next (perstNDeassert straps s)
/-- PERST_N_ASSERT: the pin acts whatever the package does. -/
def execPerstNAssert (s : State) : Host.Outcome State Fault Refusal := .next (perstNAssert s)
/-- BOOT_ROM. -/
def execBootRom (s : State) := act s bootRom
/-- HOSTLOAD. -/
def execHostload (s : State) := actBy 0 s hostload
/-- FW_BRINGUP. -/
def execFwBringup (r : Bringup) (s : State) := act s (fwBringup r)
/-- TOPO_APPLY. -/
def execTopoApply (s : State) := actBy 0 s topoApply
/-- LOAD_BEGIN. -/
def execLoadBegin (s : State) := actBy 0 s loadBegin
/-- LOAD_DONE. -/
def execLoadDone (s : State) := actBy 0 s loadDone
/-- BOOT_START. -/
def execBootStart (s : State) := actBy 0 s bootStart
/-- STREAM_DRAINED. -/
def execStreamDrained (c : CoreId) (s : State) := act s fun s => onCore s c streamDrained

end Sys2Proof.Machine
end

