-- ==== Sys2Proof/Machine/Shaper.lean ====
section
/-! DEFINITION. The shaper (R197 to R200) and the plane-form layouts (R128, R129). -/

namespace Sys2Proof.Machine

/-! ## Plane-form tiles -/

/-- The byte of a plane-form weight tile that holds bit (j, k, n) (R128). -/
def planeByte (j k n : Nat) : Nat := 512 + 2048 * j + 16 * k + n / 8

/-- Bit j of the mantissa of row k, column n of a weight tile. -/
def planeBit (tile : Array Byte) (j k n : Nat) : Nat := (tile.getD (planeByte j k n) 0).toNat / 2 ^ (n % 8) % 2

/-- The mantissa bits of row k, column n of a tile of p stored planes. -/
def weightBits (tile : Array Byte) (p k n : Nat) : Nat :=
  (List.range p).foldl (fun v j => v + planeBit tile j k n * 2 ^ j) 0

/-- The byte of a plane-form activation tile that holds digit d of element k of vector r (R129). -/
def digitByte (dc r d k : Nat) : Nat := 64 + 128 * (dc * r + d) + k

/-- The mantissa bits of element k of vector r. -/
def actBits (tile : Array Byte) (dc r k : Nat) : Nat :=
  (List.range dc).foldl (fun v d => v + (tile.getD (digitByte dc r d k) 0).toNat * 2 ^ (8 * d)) 0

/-- A byte from eight bits, lowest first. -/
def byteOf (f : Nat → Nat) : Byte := BitVec.ofNat 8 ((List.range 8).foldl (fun v i => v + f i % 2 * 2 ^ i) 0)

/-- The tick after the issue in which element i of field 0 is read at two beats per tick (R500). -/
def packRead (d : Desc) (i : Nat) : Nat := i * fmtBits (fld d 0).fmt / 1024

/-- The reads of the T1 code 10 among the elements of field 0 (R118). -/
def packT1 (d : Desc) (els : List Nat) : List (Nat × Ev) :=
  if (fld d 0).fmt ≠ 0 then [] else ((List.range els.length).zip els).flatMap fun (i, v) => numEv (packRead d i) 3 (b2n (v == 2))

/-- The tick after the issue in which beat i of a pack's output is written (R500). -/
def packTick (d : Desc) (i : Nat) : Nat := writeTick 2 (fld d 2).extent ((opPlan d).dur.getD 0) i

/-- The SPECIAL events of packed blocks, those of block i when its scale byte is written. A clamp at the highest scale is one (R124,
R145). -/
def packedEv (d : Desc) (bs : List Packed) : List (Nat × Ev) :=
  ((List.range bs.length).zip bs).flatMap fun (i, b) => numEv (packTick d (i / 64)) 2 (b.special + b2n b.clamped)

/-- Pack 16,384 elements as a weight tile (R124 to R126, R128): its bytes and its blocks. -/
def packWeights (fmt g : Nat) (els : Array Nat) (scales : Option (Array Nat)) : List Byte × List Packed :=
  let p := planesOf fmt g
  let sp := storedPlanes fmt g
  let blocks := (List.range 512).map fun i =>
    packElems fmt p (scales.map fun x => x.getD i 0) ((List.range 32).map fun k => els.getD (128 * (32 * (i / 128) + k) + i % 128) 0)
  let mants : Array (Array Nat) := (blocks.map fun b => (b.mants.map (unsigned sp)).toArray).toArray
  let m (k n : Nat) : Nat := (mants.getD (128 * (k / 32) + n) #[]).getD (k % 32) 0
  let planes := (List.range (sp * 2048)).map fun i =>
    let j := i / 2048
    let k := i % 2048 / 16
    byteOf fun t => m k (8 * (i % 16) + t) / 2 ^ j
  ((blocks.map fun b => BitVec.ofNat 8 b.scale) ++ planes, blocks)

/-- Pack 2,048 elements as an activation tile (R124 to R126, R129). -/
def packActs (fmt : Nat) (els : Array Nat) (scales : Option (Array Nat)) : List Byte × List Packed :=
  let dc := digitCount fmt
  let blocks := (List.range 64).map fun i =>
    packElems fmt (8 * dc) (scales.map fun x => x.getD i 0) ((List.range 32).map fun k => els.getD (128 * (i / 4) + 32 * (i % 4) + k) 0)
  let mants : Array (Array Nat) := (blocks.map fun b => (b.mants.map (unsigned (8 * dc))).toArray).toArray
  let digits := (List.range (2048 * dc)).map fun i =>
    let r := i / (128 * dc)
    let d := i % (128 * dc) / 128
    let k := i % 128
    BitVec.ofNat 8 ((mants.getD (4 * r + k / 32) #[]).getD (k % 32) 0 / 2 ^ (8 * d))
  ((blocks.map fun b => BitVec.ofNat 8 b.scale) ++ digits, blocks)

/-- The exact value of a mantissa under a block scale (R127); 0xFF gives zero. -/
def scaled (scale : Nat) (m : Int) : XVal := if scale = 0xFF then .zero false else XVal.ofDyadic m ((scale : Int) - 127)

/-- The values of a weight tile in element order, with reads of the T1 code 10 (R127). -/
def unpackWeights (fmt g : Nat) (tile : Array Byte) : List (XVal × Bool) :=
  let sp := storedPlanes fmt g
  (List.range 16384).map fun i =>
    let k := i / 128
    let n := i % 128
    let v := weightBits tile sp k n
    let bad := fmt = 0 ∧ v = 2
    (if bad then .zero false else scaled (tile.getD (128 * (k / 32) + n) 0).toNat (signed sp v), bad)

/-- The values of an activation tile in element order (R127). -/
def unpackActs (fmt : Nat) (tile : Array Byte) : List (XVal × Bool) :=
  let dc := digitCount fmt
  (List.range 2048).map fun i =>
    let r := i / 128
    let k := i % 128
    (scaled (tile.getD (4 * r + k / 32) 0).toNat (signed (8 * dc) (actBits tile dc r k)), false)

/-- The blocks of a tile whose scale byte is 0xFF, each one SPECIAL event (R127, R142), as its byte is read. -/
def badScales (tile : Array Byte) (n : Nat) : List (Nat × Ev) :=
  (List.range n).flatMap fun i => numEv (i / 128) 2 (b2n (tile.getD i 0 == 0xFF))

/-! ## Operations -/

/-- TRANSPOSE (R198). -/
def shTranspose (o : Op) : Result :=
  let rows := dw o.desc 12
  let cols := dw o.desc 13
  let arr := (o.els 0).toArray
  { out := fieldBytes o.desc 1 ((List.range (rows * cols)).map fun j => arr.getD (j % rows * cols + j / rows) 0) }

/-- BLOCKPERM (R198). -/
def shBlockperm (o : Op) : Result :=
  let pat := dw o.desc 14 + 2 ^ 32 * dw o.desc 15
  let arr := (o.els 0).toArray
  { out := fieldBytes o.desc 1 ((List.range arr.size).map fun i => arr.getD (16 * (i / 16) + bits pat (4 * (i % 16)) 4) 0) }

/-- RESHAPE (R198): the beats of its rows go over as they are. -/
def shReshape (o : Op) : Result := { out := o.bytes 0 (dw o.desc 12 * dw o.desc 13) }

/-- The scale operand of a pack, when field 1 is one. -/
def scalesOf (o : Op) : Option (Array Nat) := if (fld o.desc 1).use = 0 then none else some (o.els 1).toArray

/-- PACK_W (R199). -/
def shPackW (o : Op) : Result :=
  let d := o.desc
  let els := o.els 0
  let (bs, blocks) := packWeights (fld d 0).fmt (dOpc d - 0x10) els.toArray (scalesOf o)
  { out := bs, evs := packT1 d els ++ packedEv d blocks }

/-- PACK_A (R199). -/
def shPackA (o : Op) : Result :=
  let d := o.desc
  let els := o.els 0
  let (bs, blocks) := packActs (fld d 0).fmt els.toArray (scalesOf o)
  { out := bs, evs := packT1 d els ++ packedEv d blocks }

/-- UNPACK (R199): each value is converted once to the destination's format; a T1 mantissa comes with its second plane bit. -/
def shUnpack (s : State) (o : Op) : Result :=
  let d := o.desc
  let fmt := (fld d 0).fmt
  let tile := (o.bytes 0 (fld d 0).extent).toArray
  let (vals, bad) := if bitOf (dw d 12) 31 then (unpackActs fmt tile, badScales tile 64) else (unpackWeights fmt (bits (dw d 12) 8 3) tile, badScales tile 512)
  let (es, ev) := convertAll s o (fld d 1).fmt (fun i => planeByte 1 (i / 128) (i % 128) / 128) (elementTick 2 d (fld d 1)) 0 vals
  { out := fieldBytes d 1 es, evs := bad ++ ev }

/-- The shaper. -/
def shResult (s : State) (o : Op) : Result :=
  match dOpc o.desc with
  | 1 => shTranspose o
  | 2 => shBlockperm o
  | 3 => shReshape o
  | 0x18 => shPackA o
  | 0x20 => shUnpack s o
  | _ => shPackW o

/-- TRANSPOSE. -/
def execTranspose (c : CoreId) (s : State) := act s fun s => onCore s c (issue 3 [0x01] startFixed)
/-- BLOCKPERM. -/
def execBlockperm (c : CoreId) (s : State) := act s fun s => onCore s c (issue 3 [0x02] startFixed)
/-- RESHAPE. -/
def execReshape (c : CoreId) (s : State) := act s fun s => onCore s c (issue 3 [0x03] startFixed)
/-- PACK_W. -/
def execPackW (c : CoreId) (s : State) := act s fun s => onCore s c (issue 3 [0x10, 0x11, 0x12, 0x13, 0x14] startFixed)
/-- PACK_A. -/
def execPackA (c : CoreId) (s : State) := act s fun s => onCore s c (issue 3 [0x18] startFixed)
/-- UNPACK. -/
def execUnpack (c : CoreId) (s : State) := act s fun s => onCore s c (issue 3 [0x20] startFixed)

end Sys2Proof.Machine
end

