-- ==== Sys2Proof/Machine/Decompress.lean ====
section
/-! DEFINITION. The decompressor (R212 to R215) and the completion of descriptors (R58, R184). -/

namespace Sys2Proof.Machine

/-! ## Codecs (R213, R214) -/

/-- Beats i to i + n − 1 of a byte list. -/
def beatsOf (data : List Byte) (i n : Nat) : List Byte := (data.drop (64 * i)).take (64 * n)

/-- What a codec writes: the bytes, the first output beat that depends on bad input (R214), and the blocks that a PACK makes. -/
structure Expanded where
  bytes : List Byte
  bad : Option Nat := none
  blocks : List Packed := []

/-- Stored beats put in place by a map: `ones` are the positions of the stored beats. -/
def placeBeats (stored : List Byte) (e : Nat) (ones : List Nat) : List Byte :=
  let arr := stored.toArray
  let at_ := (ones.zip (List.range ones.length)).foldl (fun (a : Array (Option Nat)) x => a.setIfInBounds x.1 (some x.2)) (Array.replicate e none)
  (List.range e).flatMap fun i => match at_.getD i none with
    | some j => (List.range 64).map fun b => arr.getD (64 * j + b) 0
    | none => List.replicate 64 0

/-- BEATMAP. -/
def beatmap (e inb : Nat) (data : List Byte) : Expanded :=
  let mb := ceilDiv e 512
  let map := leNat (beatsOf data 0 mb)
  let ones := setBitsOf (512 * mb) map
  let stored := inb - mb
  let beyond := ones.find? fun i => decide (e ≤ i)
  let count := if inb = mb + ones.length then none else some (ones.getD stored e)
  { bytes := placeBeats (data.drop (64 * mb)) e ones
    bad := match beyond, count with
      | some a, some b => some (Nat.min a b)
      | some a, none => some a
      | none, b => b }

/-- SPARSE24: position nibbles, each with the rows of the two kept elements of four. -/
def sparse24 (sp : Nat) (data : List Byte) : Expanded :=
  let arr := data.toArray
  let nib (i : Nat) : Nat := (arr.getD (512 + i / 2) 0).toNat / 16 ^ (i % 2) % 16
  let bit (j i : Nat) : Nat := (arr.getD (2560 + 1024 * j + i / 8) 0).toNat / 2 ^ (i % 8) % 2
  let cell (j k n : Nat) : Nat :=
    let i := 128 * (k / 4) + n
    let v := nib i
    if k % 4 = v % 4 then bit j (2 * i) else if k % 4 = v / 4 then bit j (2 * i + 1) else 0
  let planes := (List.range (sp * 2048)).map fun x => byteOf fun t => cell (x / 2048) (x % 2048 / 16) (8 * (x % 16) + t)
  let badNib := (List.range 4096).find? fun i => decide (nib i / 4 ≤ nib i % 4)
  { bytes := data.take 512 ++ planes, bad := badNib.map fun i => 8 + i / 128 }

/-- The bytes of the elements of a PACK's input tile, in beats (R213). -/
def packBeats (d : Desc) : Nat := (if bitOf (dw d 12) 31 then 4 else 32) * fmtBits (fld d 0).fmt

/-- PACK: an element tile, packed as R199 does. The T1 code 10 is bad input while it is a fault: the first beat that depends on it is the
one that holds its plane bits, or its digit. -/
def packCodec (d : Desc) (t1Fault : Bool) (data : List Byte) : Expanded :=
  let fmt := (fld d 0).fmt
  let act := bitOf (dw d 12) 31
  let w := fmtBits fmt
  let nb := packBeats d
  let els := elements w (512 * nb / w) (beatsOf data 0 nb)
  let scales := if bitOf (dw d 12) 30 then some ((data.drop (64 * nb)).map (·.toNat)).toArray else none
  let (bs, blocks) := if act then packActs fmt els.toArray scales else packWeights fmt (bits (dw d 12) 8 3) els.toArray scales
  let place (i : Nat) : Nat := (if act then digitByte (digitCount fmt) (i / 128) 0 (i % 128) else planeByte 0 (i / 128) (i % 128)) / 64
  let bad := if t1Fault && fmt == 0 then ((List.range els.length).zip els).find? (fun e => e.2 == 2) |>.map fun e => place e.1 else none
  { bytes := bs, bad := bad, blocks := blocks }

/-- What an EXPAND of destination format `fmt` and extent `e` makes of its input. -/
def expandData (d : Desc) (t1Fault : Bool) (data : List Byte) : Expanded :=
  let w := dw d 12
  let fmt := (fld d 0).fmt
  let e := (fld d 0).extent
  let x : Expanded := match w % 16 with
    | 0 => { bytes := data }
    | 1 => beatmap e (dw d 13) data
    | 2 => sparse24 (storedPlanes fmt (bits w 8 3)) data
    | _ => packCodec d t1Fault data
  match x.bad with
  | some i => { x with bytes := x.bytes.take (64 * i) ++ List.replicate (x.bytes.length - 64 * i) 0 }
  | none => x

/-! ## EXPAND (R215) -/

/-- The EXPAND that runs: the oldest one that has not written all its output, once those before it have finished. -/
def runningExpand (wall : Nat) (c : Core) : Option Op :=
  let ops := c.inflight.filter fun o => o.eng == 7
  match ops.find? fun o => decide (o.work = .expand none) with
  | none => none
  | some o => if (ops.takeWhile fun x => x.id != o.id).all (fun x => match x.work with
      | .expand (some w) => decide (w ≤ wall)
      | _ => x.done.isSome) then some o else none

/-- The input beats that an EXPAND asks for now: what its next two output beats depend on. -/
def wantedInput (o : Op) : Nat := Nat.max (needInput o o.age) (needInput o (o.age + 1))

/-- An EXPAND takes FIFO beats, until it has what it asks for; the map of a BEATMAP comes first, and says what comes then. -/
def takeInput : Nat → Op → List FifoBeat → Op × List FifoBeat
  | 0, o, l => (o, l)
  | _ + 1, o, [] => (o, [])
  | fuel + 1, o, b :: l =>
    if wantedInput o ≤ o.feedNext then (o, b :: l)
    else takeInput fuel { o with
      seen := FMap.put [] o.seen (slotOf 0 o.feedNext) b.bytes, feedNext := o.feedNext + 1, fromStash := o.fromStash || b.stash } l

/-- The T1 codes 10 in PACK input beats [lo, hi) that have just been taken (R118, R214). -/
def takenT1 (o : Op) (lo hi : Nat) : Nat :=
  let d := o.desc
  if dw d 12 % 16 ≠ 3 ∨ (fld d 0).fmt ≠ 0 then 0
  else ((List.range (Nat.min hi (packBeats d) - lo)).flatMap fun i => elements 2 256 (o.part 0 (lo + i) 1)).countP (· == 2)

/-- The running EXPAND of a core takes the input of this tick. -/
def expandTake (k : Nat) (s : State) : State :=
  let c := s.core k
  match runningExpand s.wall c with
  | none => s
  | some o =>
    if !clockRuns s then s
    else
      let (o1, l) := takeInput 2048 o c.fifo
      let s1 := s.setCore k (modOp { c with fifo := l } o.id fun _ => o1)
      let n := takenT1 o1 o.feedNext o1.feedNext
      if n = 0 then s1 else fireEv k o1 s1 (.num 3 n)

/-- What an EXPAND makes of the beats that it has taken. -/
def expanded (s : State) (k : Nat) (o : Op) : Expanded :=
  expandData o.desc (bitOf (numCtrl s (k / 288)) 0) (o.bytes 0 (dw o.desc 13))

/-- The events of the output beats that an EXPAND has just written: a packed block is a SPECIAL event with its scale byte, and bad input a
DZ_FORMAT with the first beat that depends on it, or with the last beat when none does (R214, R221). -/
def expandEvents (k : Nat) (o : Op) (x : Expanded) (js : List Nat) (s : State) : State :=
  let e := (fld o.desc 0).extent
  js.foldl (fun s j =>
    let sp := (((x.blocks.drop (64 * j)).take 64).map fun b => b.special + b2n b.clamped).sum
    let s1 := if sp = 0 then s else fireEv k o s (.num 2 sp)
    match x.bad with
    | some i => if j = Nat.min i (e - 1) then fireEv k o s1 (.eng 3 i) else s1
    | none => s1) s

/-- EXPAND issues: it waits for its input and for the EXPANDs before it. -/
def dzIssue (k : Nat) (q : Checked) (s : State) : State := addOp s k (mkOp s k q (.expand none) 0)

/-! ## Completion (R58, R184) -/

/-- The reads of an operation that are due in this tick all get their banks. -/
def readsPass (s : State) (k : Nat) (o : Op) : Bool :=
  let dues := coreDues s k (s.core k).inflight
  opMoves s o && dues.all fun x => x.op != o.id || x.acc.write || (loserTo dues x).isNone

/-- An operation's work is done in this tick, if its last beat leaves in it (R183). -/
def workDone (s : State) (k : Nat) (o : Op) : Bool :=
  let n := (fld o.desc 0).extent
  let leaves (left n : Nat) : Bool := decide (n ≤ left) || (left + 1 == n && readsPass s k o)
  match o.work with
  | .fixed n => decide (n ≤ o.age)
  | .landing n => n == 0 && (!o.input || o.digestDone)
  | .sending none => false
  | .sending (some n) => leaves o.feedNext n
  | .rank none _ => false
  | .rank (some (_, left)) w => leaves left n && !w
  | .hostOut _ => leaves o.feedNext n
  | .expand none => false
  | .expand (some w) => decide (w ≤ s.wall)

/-- DESCRIPTOR_COMPLETE: the descriptor is complete and its completion signal goes to its counter (R58, R184, R267). -/
def descriptorComplete (op k : Nat) (s0 : State) : State :=
  let s := s0.modCore k (Core.flow s0.wall)
  match (s.core k).inflight.find? fun o => o.id == op && o.done.isNone && o.varLat with
  | none => s
  | some o =>
    if !workDone s k o then s
    else
      let s1 := s.modCore k fun c => modOp c op fun o => { o with done := some s.wall }
      match o.sig with
      | some g => counterOp s1 ⟨rowOrder 2 (virtOf s k) op, k, g.ctr, g.op, g.value, 2, localSrc s k⟩
      | none => s1

/-- EXPAND. -/
def execExpand (c : CoreId) (s : State) := act s fun s => onCore s c (issue 7 [1] dzIssue)
/-- DESCRIPTOR_COMPLETE. -/
def execDescriptorComplete (c : CoreId) (op : Nat) (s : State) := act s fun s => onCore s c (descriptorComplete op)

end Sys2Proof.Machine
end

