-- ==== Sys2Proof/Machine/Icu.lean ====
section
/-! DEFINITION. The panel interrupt controllers (R383 to R389). -/

namespace Sys2Proof.Machine

/-- An interrupt controller. -/
def State.icu (s : State) (p : Nat) : Icu := FMap.look {} s.icus p

/-- Replace an interrupt controller. -/
def State.setIcu (s : State) (p : Nat) (x : Icu) : State := { s with icus := FMap.put {} s.icus p x }

/-- A source of an interrupt controller. -/
def Icu.src (x : Icu) (n : Nat) : IcuSrc := FMap.look {} x.srcs n

/-- Replace a source. -/
def Icu.setSrc (x : Icu) (n : Nat) (v : IcuSrc) : Icu := { x with srcs := FMap.put {} x.srcs n v }

/-! ## Inputs (R383) -/

/-- BLK_ERR of a block is not 0; a block whose domain is not ON drives 0. -/
def errInput (s : State) (b : Blk) : Bool := writable s b && s.regN b 0x14 != 0

/-- (BLK_IRQ_CAUSE & BLK_IRQ_MASK) is not 0. -/
def causeInput (s : State) (b : Blk) : Bool := writable s b && (s.reg b 0x20 &&& s.reg b 0x24) != 0

/-- A source is not reserved. -/
def icuUsed (n : Nat) : Bool :=
  decide (n < 288) || (decide (288 ≤ n) && decide (n < 309)) || (decide (320 ≤ n) && decide (n < 341)) || (decide (352 ≤ n) && decide (n < 365))
  || (decide (368 ≤ n) && decide (n < 381)) || (decide (384 ≤ n) && decide (n < 387)) || (decide (416 ≤ n) && decide (n < 432))

/-- The input of source n of panel p. The pulse of ICU_XPANEL is not held. -/
def icuInput (s : State) (p n : Nat) : Bool :=
  if n < 288 then
    let c := s.core (coreKey p n)
    writable s (.str p n) && drained c && c.stream.st != .running
  else if n < 309 then ((panelBlocks p)[n - 288]?).any (errInput s)
  else if 320 ≤ n ∧ n < 341 then ((panelBlocks p)[n - 320]?).any (causeInput s)
  else if 424 ≤ n ∧ n < 432 then s.regBit (.icu p) 0xC0 (n - 424)
  else if p ≠ 0 then false
  else if 352 ≤ n ∧ n < 365 then (pkgBlocks[n - 352]?).any (errInput s)
  else if 368 ≤ n ∧ n < 381 then (pkgBlocks[n - 368]?).any (causeInput s)
  else if n = 384 then s.srv.unread != 0
  else if n = 385 then s.srv.flrWaits
  else if n = 386 then !s.hostWaits.isEmpty
  else false

/-! ## Events (R384) -/

/-- An event of a source in wall tick `now`: it is counted. -/
def IcuSrc.counted (x : IcuSrc) (now : Nat) : IcuSrc :=
  let first := x.edgeAt != now + 1
  { x with edgeAt := now + 1, count := Nat.min (x.count + 1) 255, cntWas := if first then x.count else x.cntWas, cntNew := (if first then 0 else x.cntNew) + 1 }

/-- An edge of a source's input in wall tick `now`. -/
def IcuSrc.edgeOf (x : IcuSrc) (now : Nat) (e : Edge) : IcuSrc :=
  match x.sense, e with
  | 0, .rise | 1, .fall => x.counted now
  | 2, .rise | 3, .fall | 4, _ => { x.counted now with edge := true }
  | _, _ => x

/-- The edge-pending bit after a claim or a W1C write in wall tick `now`: cleared, unless an edge came in that tick (R388). -/
def IcuSrc.edgeAfter (x : IcuSrc) (now : Nat) : Bool := x.edge && x.edgeAt == now + 1

/-- A source after a read of its count in wall tick `now`: what that tick has counted is left (R11). -/
def IcuSrc.readCount (x : IcuSrc) (now : Nat) : IcuSrc :=
  if x.edgeAt = now + 1 then { x with count := Nat.min x.cntNew 255, cntWas := 0 } else { x with count := 0 }

/-- The count that a read in wall tick `now` returns: that before the tick (R11). -/
def IcuSrc.countRead (x : IcuSrc) (now : Nat) : Nat := if x.edgeAt = now + 1 then x.cntWas else x.count

/-- ICU_SOURCE_EVENT: source n's input has changed as `e` says. -/
def icuSourceEvent (p n : Nat) (e : Edge) (s : State) : State :=
  let x := s.icu p
  let v := x.src n
  let now := icuInput s p n
  if icuUsed n && now != v.input && now == decide (e = .rise) then s.setIcu p (x.setSrc n { v.edgeOf s.wall e with input := now }) else s

/-- A source is pending. -/
def icuPending (s : State) (p n : Nat) : Bool :=
  let v := (s.icu p).src n
  match v.sense with
  | 0 => icuInput s p n
  | 1 => icuUsed n && !icuInput s p n
  | _ => v.edge

/-! ## Claim and end (R385 to R387) -/

/-- Group g is in hold-off. -/
def inHoldoff (s : State) (p g : Nat) : Bool :=
  match FMap.look none (s.icu p).holdoff g with
  | some t => decide (s.time.toNat < t)
  | none => false

/-- The priority stack of hart h, top first, without its bottom entry. -/
def icuStack (s : State) (p h : Nat) : List (Nat × Nat) := FMap.look [] (s.icu p).prioStacks h

/-- The priority at the top. -/
def icuTop (s : State) (p h : Nat) : Nat := (icuStack s p h).head?.elim 0 (·.2)

/-- A source is a candidate for hart h. -/
def icuCandidate (s : State) (p h n : Nat) : Bool :=
  let v := (s.icu p).src n
  v.en && v.hart == h && v.prio != 0 && icuPending s p n && !v.active && !inHoldoff s p (n / 32)

/-- The source that a claim by hart h takes: the highest PRIO above the top, the lowest number among equals. -/
def icuBest (s : State) (p h : Nat) : Option Nat :=
  minOn? (fun n => (15 - ((s.icu p).src n).prio) * 512 + n)
    ((List.range 512).filter fun n => icuUsed n && icuCandidate s p h n && decide (icuTop s p h < ((s.icu p).src n).prio))

/-- Hart h's machine external interrupt is asserted. -/
def icuAsserted (s : State) (p h : Nat) : Bool := (icuBest s p h).isSome

/-- ICU_CLAIM: a read of ICU_CLAIMh. -/
def icuClaim (p h : Nat) (s : State) : State :=
  match icuBest s p h with
  | none => { s with reply := {} }
  | some n =>
    let x := s.icu p
    let v := x.src n
    let us := s.regN (.icu p) (0x80 + 4 * (n / 32)) % 2 ^ 16
    let x1 := x.setSrc n { v with active := true, edge := v.edgeAfter s.wall }
    let x2 : Icu := { x1 with
      prioStacks := FMap.put [] x1.prioStacks h ((n, v.prio) :: icuStack s p h)
      holdoff := if us = 0 then x1.holdoff else FMap.put none x1.holdoff (n / 32) (some (s.time.toNat + us * 1000)) }
    { s.setIcu p x2 with reply := { value := BitVec.ofNat 64 (2 ^ 31 + v.prio * 2 ^ 16 + n) } }

/-- The handler of a source has ended: firmware has read the doorbell queue, or seen the reset that waited for it (log entry 147). -/
def firmwareSaw (n : Nat) (s : State) : State :=
  if n = 384 then { s with srv := { s.srv with unread := 0 } } else if n = 385 then { s with srv := { s.srv with flrWaits := false } } else s

/-- ICU_EOI: a write of ICU_EOIh. -/
def icuEoi (p h src : Nat) (s : State) : State :=
  match icuStack s p h with
  | [] => raiseErr s (.icu p) 0
  | (n, _) :: rest =>
    let x := s.icu p
    let x1 := x.setSrc n { x.src n with active := false }
    let s1 := firmwareSaw n (s.setIcu p { x1 with prioStacks := FMap.put [] x1.prioStacks h rest })
    if src % 512 = n then s1 else raiseErr s1 (.icu p) 1

/-- ICU_HOLDOFF_EXPIRE. -/
def icuHoldoffExpire (p g : Nat) (s : State) : State :=
  let x := s.icu p
  match FMap.look none x.holdoff g with
  | some t => if t ≤ s.time.toNat then s.setIcu p { x with holdoff := FMap.put none x.holdoff g none } else s
  | none => s

/-- ICU_XPANEL_GO: a pulse on source 416 + p of the target panel (R389). -/
def icuXpanelGo (p target : Nat) (s : State) : State :=
  if !writable s (.icu target) then s.countNoEffect (.icu p)
  else
    let x := s.icu target
    let n := 416 + p
    s.setIcu target (x.setSrc n (((x.src n).edgeOf s.wall .rise).edgeOf s.wall .fall))

/-- ICU_PENDING_CLEAR: a W1C write to PENDING. -/
def icuPendingClear (p n : Nat) (s : State) : State :=
  let x := s.icu p
  if !icuUsed n then s.countNoEffect (.icu p)
  else if 2 ≤ (x.src n).sense then s.setIcu p (x.setSrc n { x.src n with edge := (x.src n).edgeAfter s.wall })
  else s

/-- ICU_SOURCE_EVENT. -/
def execIcuSourceEvent (p n : Nat) (e : Edge) (s : State) := act s fun s => onBlock s (.icu p) (icuSourceEvent p n e)
/-- ICU_CLAIM. -/
def execIcuClaim (p h : Nat) (s : State) := actBy (65 + p) s fun s => if h < 4 then onBlock s (.icu p) (icuClaim p h) else s
/-- ICU_EOI. -/
def execIcuEoi (p h src : Nat) (s : State) := actBy (65 + p) s fun s => if h < 4 then onBlock s (.icu p) (icuEoi p h src) else s
/-- ICU_HOLDOFF_EXPIRE. -/
def execIcuHoldoffExpire (p g : Nat) (s : State) := act s fun s => onBlock s (.icu p) (icuHoldoffExpire p g)
/-- ICU_XPANEL_GO. -/
def execIcuXpanelGo (p target : Nat) (s : State) := actBy (65 + p) s fun s => onBlock s (.icu p) (icuXpanelGo p target)
/-- ICU_PENDING_CLEAR. -/
def execIcuPendingClear (p n : Nat) (s : State) := actBy (65 + p) s fun s => onBlock s (.icu p) (icuPendingClear p n)

end Sys2Proof.Machine
end

