-- ==== Sys2Proof/Machine/Views.lean ====
section
/-! DEFINITION. What a read of each register shows (R9, R256, R372 to R376, and each block's table): stored registers, the views
that the state itself drives, and the pins. A view has no side effect. -/

namespace Sys2Proof.Machine

/-! ## Helpers -/

/-- The low or high half of a 64-bit value at a pair of registers that begins at `lo`. -/
def half (v lo off : Nat) : Nat := if off = lo then v % 2 ^ 32 else v / 2 ^ 32 % 2 ^ 32

/-- The n-th little-endian word of a byte list. -/
def wordOf (bytes : List Byte) (n : Nat) : Nat := leNat ((bytes.drop (4 * n)).take 4)

/-- The encoding of the STATE of a stream. -/
def StreamSt.code : StreamSt → Nat
  | .idle => 0 | .armed => 1 | .running => 2 | .faulted => 3

/-- The encoding of CAST_STATE.STATE. -/
def CastSt.code : CastSt → Nat
  | .idle => 0 | .arrived => 1 | .released => 2 | .failed => 3

/-- The encoding of CAST_NODEn_CFG.STATE. -/
def NodeSt.code : NodeSt → Nat
  | .disabled => 0 | .idle => 1 | .collecting => 2 | .sent => 3 | .released => 4 | .failed => 5

/-- The encoding of SRV_STATE.STATE. -/
def SrvSt.code : SrvSt → Nat
  | .none => 0 | .ready => 1 | .stopped => 2

/-- The encoding of BOOT_STAGE.STAGE. -/
def Stage.code : Stage → Nat
  | .rom => 0 | .hostWait => 1 | .fwStart => 2 | .ready => 3 | .failed => 4

/-! ## Blocks -/

/-- The views of the common header (R372). -/
def viewHeader (s : State) (b : Blk) (off : Nat) : Nat :=
  match off with
  | 0x00 => b.idWord
  | 0x04 => 0x100
  | 0x08 => topBit b.errBits * 2 ^ 16 + topBit b.irqBits * 2 ^ 8 + 3
  | 0x10 => blkPower s b + 4 * b2n (match b.domain with
    | some (p, i) => (s.dom p i).pendOn
    | none => false)
  | 0x2C => FMap.look 0 s.cnt (b.base + s.regN b 0x28 % 4)
  | _ => s.regN b off

/-- STR_STATE and STR_ISSUED (R79, R83). -/
def viewStr (s : State) (b : Blk) (k off : Nat) : Nat :=
  let c := s.core k
  let st := c.stream
  match off with
  | 0x44 => b2n st.tr.timed * 2 ^ 7 + st.depthAtIssue % 8 * 2 ^ 4 + b2n (drained c) * 2 ^ 3 + st.st.code
  | 0x70 | 0x74 => half st.issued 0x70 off
  | _ => s.regN b off

/-- HOLD_STATE, HOLD_LOG_HEAD and HOLD_LOG_DATAn (R112 to R114). -/
def viewHold (s : State) (off : Nat) : Nat :=
  if off = 0x44 then
    match s.hold with
    | none => 0
    | some h => h.pendingCauses * 2 ^ 8 + b2n (refreshing s h) * 4 + b2n h.broadcast.isSome * 2 + b2n h.frozen
  else if off = 0x58 then s.holdSeq
  else if 0x60 ≤ off ∧ off < 0x80 then ((FMap.look [] s.holdLog (s.regN .hold 0x54 % 2 ^ 10)).getD ((off - 0x60) / 4) 0).toNat
  else s.regN .hold off

/-- CLK_STATE, CLK_TIME and CLK_SLEW_LEFT (R415). -/
def viewClk (s : State) (off : Nat) : Nat :=
  let c := s.clk
  match off with
  | 0x44 => b2n c.switching.isSome * 64 + c.set * 16 + b2n c.pllLock * 8 + b2n c.holdover.isSome * 4 + b2n c.refclkOk * 2 + b2n c.sysrefOk
  | 0x48 | 0x4C => half s.time.toNat 0x48 off
  | 0x60 => unsigned 32 c.slewLeft
  | _ => s.regN .clk off

/-- PWR_LEVEL (R416). -/
def viewGov (s : State) (off : Nat) : Nat :=
  match off with
  | 0x44 => nextLevel s * 2 ^ 16 + b2n (s.fuses.panels < 8) * 2 ^ 4 + (if s.fuses.panels < 8 then 8 else s.level)
  | _ => s.regN .gov off

/-- CAST_STATE, CAST_BIND and the nodes (R289, R290). -/
def viewCast (s : State) (off : Nat) : Nat :=
  if off = 0x44 then b2n s.castDeferred * 8 + s.castSt.code
  else if off = 0x68 then b2n s.bind.isSome * 2 ^ 31 + s.regN .cast off
  else if 0x100 ≤ off ∧ off < 0x500 then
    let n := (off - 0x100) / 16
    match off % 16 with
    | 0 => s.regN .cast off + (s.node n).st.code * 2 ^ 24
    | 12 => (s.node n).arrived
    | _ => s.regN .cast off
  else s.regN .cast off

/-- FAB_SELF_ID and the selected table entry (R324). -/
def viewFab (s : State) (off : Nat) : Nat :=
  match off with
  | 0x40 | 0x44 => half s.fuses.selfId.toNat 0x40 off
  | 0xA0 | 0xA4 | 0xA8 | 0xAC =>
    let sel := s.regN .fab 0x90
    ((FMap.look [0, 0, 0, 0] s.rankTables (8192 * (sel / 2 ^ 31) + sel % 2 ^ 13)).getD ((off - 0xA0) / 4) 0).toNat
  | _ => s.regN .fab off

/-- SRV_STATE and the counts in use (R358). -/
def viewSrv (s : State) (off : Nat) : Nat :=
  match off with
  | 0x44 => s.srv.st.code
  | 0x50 => (liveCtxs s).length
  | 0x54 => qtok s % 2 ^ 32
  | 0x60 => (prefixesInUse s).length
  | 0x64 => (s.srv.motifs.filter fun e => e.2.registered).length
  | _ => s.regN .srv off

/-- BOOT_STAGE, BOOT_FW, BOOT_STRAP, BOOT_TOPO_STATUS and BOOT_JOB (R454). -/
def viewBoot (s : State) (off : Nat) : Nat :=
  let x := s.boot
  match off with
  | 0x40 => x.code * 2 ^ 8 + x.stage.code
  | 0x48 => x.source % 8 * 2 ^ 28 + s.fuses.svnMin % 64 * 2 ^ 22 + x.svn % 64 * 2 ^ 16 + x.version % 2 ^ 16
  | 0x4C => b2n s.pins.straps.hostBoot
  | 0x58 => x.topoErr * 2 ^ 16 + x.topoEntry
  | 0x5C => b2n x.loaded * 2 ^ 31 + x.err * 2 ^ 16 + s.regN .boot off % 2 ^ 12
  | _ => s.regN .boot off

/-- Rotations that the core of a window entry has completed since the load (R476). -/
def istRounds (s : State) : List Nat :=
  s.flt.istTable.map fun e => match physOf s (e.2.getD 0 0).toNat with
    | some k => (s.core k).istSlice / 512
    | none => 0

/-- FLT_STATE, FLT_FIRST and the in-service test (R484). -/
def viewFlt (s : State) (off : Nat) : Nat :=
  let f := s.flt
  match off with
  | 0x44 => b2n f.bbBusy * 8 + b2n f.hwStop * 4 + b2n (stopReq s) * 2 + b2n f.stopped
  | 0x48 => (f.first.getD 0).toNat
  | 0x50 | 0x54 => if f.first.isSome then half f.firstPtc.toNat 0x50 off else 0
  | 0x58 | 0x5C => if f.first.isSome then half f.firstTime.toNat 0x58 off else 0
  | 0x60 => (f.noticeSrc.getD 0).toNat
  | 0x70 => s.regN .flt off / 2 ^ 31 * 2 ^ 31 + f.istTable.length
  | 0x78 => (istRounds s).min?.getD 0
  | _ => s.regN .flt off

/-- EVR_HEAD and EVR_DATAn of recorder r (R485). -/
def viewEvr (s : State) (b : Blk) (r off : Nat) : Nat :=
  let e := FMap.look {} s.evrs r
  if off = 0x48 ∨ off = 0x4C then half e.head 0x48 off
  else if 0x200 ≤ off ∧ off < 0x300 then wordOf (FMap.look [] e.ring (s.regN b 0x50 % 2 ^ 10)) ((off - 0x200) / 4)
  else s.regN b off

/-- The active management binding: 1 = I3C, 2 = SMBus (R477, R486). -/
def mgtBus (s : State) : Nat :=
  if s.mgmt.bus = 1 ∧ s.regBit .mgt 0x40 1 then 1 else if s.mgmt.bus = 2 ∧ s.regBit .mgt 0x40 2 then 2 else 0

/-- MGT_STATE (R486). -/
def viewMgt (s : State) (off : Nat) : Nat :=
  match off with
  | 0x44 => mgtBus s * 2 ^ 16 + (0x60 + s.pins.straps.mgmtAddr % 4) * 2 ^ 8 + s.mgmt.eid % 256
  | _ => s.regN .mgt off

/-- PNL_INFO and PNL_SLOT_MAPk (R23, R24). -/
def viewPnl (s : State) (b : Blk) (p off : Nat) : Nat :=
  if off = 0x40 then 1 * 2 ^ 16 + 1 * 2 ^ 12 + 3 * 2 ^ 8 + b2n s.fuses.hbm3e * 2 ^ 6 + b2n (p = 0) * 2 ^ 5 + p
  else if 0x80 ≤ off ∧ off < 0xC0 then slotMap s p ((off - 0x80) / 4)
  else s.regN b off

/-- The digest chain of the selected core (R222). -/
def viewEng (s : State) (b : Blk) (p off : Nat) : Nat :=
  let c := s.core (coreKey p (s.regN b 0x50 % 2 ^ 9))
  if off = 0x54 then c.digestN % 2 ^ 32
  else if 0x60 ≤ off ∧ off < 0x80 then wordOf c.digestH ((off - 0x60) / 4)
  else s.regN b off

/-- STS_WEAR, STS_SPARE, STS_SCRUB_AGE and STS_BB (R261). There are 8,704 physical blocks (R247). -/
def viewSts (s : State) (b : Blk) (p off : Nat) : Nat :=
  let x := s.stash p
  match off with
  | 0x5C =>
    let total := x.wear.foldl (fun n e => n + e.2) 0
    Nat.min ((x.wear.map (·.2)).max?.getD 0) 0xFFFF * 2 ^ 16 + Nat.min (total / 8704) 0xFFFF
  | 0x60 => x.spare
  | 0x68 =>
    let oldest := if x.scrubbed.length < 8192 then 0 else (x.scrubbed.map (·.2)).min?.getD 0
    (s.time.toNat - oldest) / 1000000000 % 2 ^ 32
  | 0x80 => if p < 2 then x.bbLast * 16 + x.bbValid.length else 0
  | _ => s.regN b off

/-- Whether a stream waits on the counter that core k names `ctr`: a local counter of core k, or a shared one of its panel (R263, R270). -/
def waitsOn (k ctr k' : Nat) (st : Stream) : Bool :=
  match st.waiting with
  | none => false
  | some (c, _) =>
    if bitOf ctr 12 then bitOf c 12 && c % 4096 == ctr % 4096 && k' / 288 == k / 288
    else !bitOf c 12 && c % 64 == ctr % 64 && k' == k

/-- The waiters of a counter (R270). -/
def waiters (s : State) (k ctr : Nat) : Nat := (s.cores.filter fun e => waitsOn k ctr e.1 e.2.stream).length

/-- ROW_VALUE, ROW_INFO and ROW_LAST_SRC of the selected counter (R288). -/
def viewRow (s : State) (b : Blk) (p off : Nat) : Nat :=
  let sel := s.regN b 0x44
  let shared := bitOf sel 31
  let k := coreKey p (if shared then 0 else bits sel 12 9)
  let ctr := if shared then 2 ^ 12 + sel % 2 ^ 12 else sel % 64
  let r := counterOf s k ctr
  let seen := shared || slotEnabled s p (bits sel 12 9)
  match off with
  | 0x48 => if seen then r.value.toNat else 0
  | 0x4C => if seen then r.kind * 2 ^ 29 + waiters s k ctr % 2 ^ 9 else 0
  | 0x50 => if seen then r.src.toNat else 0
  | _ => s.regN b off

/-- PLY_LINK_STATE (R322). -/
def viewPly (s : State) (b : Blk) (l off : Nat) : Nat :=
  match off with
  | 0x44 => s.regN b off + (s.link l).st.code
  | _ => s.regN b off

/-- D2D_IFi_STATE (R419). -/
def viewD2d (s : State) (b : Blk) (p off : Nat) : Nat :=
  let i := (off - 0x40) / 16
  if 0x40 ≤ off ∧ off < 0x70 ∧ off % 16 = 0 then
    match (d2dsOf p)[i]? with
    | none => 0
    | some m =>
      let x := s.d2d p i
      b2n (d2dNumber s p i).isSome * 2 ^ 31 + b2n x.locked * 2 ^ 30 + m * 2 ^ 16 + x.repaired % 256
  else s.regN b off

/-- ICU_STACKh, ICU_SRCn, ICU_CNTk and ICU_PENDk (R389). ICU_CLAIMh is shown as a read that claims nothing. -/
def viewIcu (s : State) (b : Blk) (p off : Nat) : Nat :=
  let x := s.icu p
  if 0x40 ≤ off ∧ off < 0x80 then
    let h := (off - 0x40) / 16
    if off % 16 = 8 then
      match icuStack s p h with
      | [] => 0
      | e :: es => (es.length + 1) * 2 ^ 20 + e.2 * 2 ^ 16 + e.1
    else 0
  else if 0x1000 ≤ off ∧ off < 0x1800 then
    let n := (off - 0x1000) / 4
    let v := x.src n
    if icuUsed n then b2n v.en * 2 ^ 31 + v.sense * 2 ^ 28 + v.prio * 2 ^ 24 + v.hart * 2 ^ 22 + b2n (icuInput s p n) * 4 + b2n v.active * 2 + b2n (icuPending s p n)
    else 0
  else if 0x1800 ≤ off ∧ off < 0x1A00 then
    let k := off - 0x1800
    leNat ([0, 1, 2, 3].map fun m => BitVec.ofNat 8 (x.src (k + m)).count)
  else if 0x1A00 ≤ off ∧ off < 0x1A40 then
    let g := (off - 0x1A00) / 4
    (List.range 32).foldl (fun m j => if icuPending s p (32 * g + j) then m ||| 2 ^ j else m) 0
  else s.regN b off

/-- HART of hart h of panel p: a running hart without an interrupt may wait for one (R455, log entry 150). -/
def hartState (s : State) (p h : Nat) : Nat :=
  let v := FMap.look 0 s.harts (4 * p + h)
  if v = 1 ∧ Config.hartWaits (4 * p + h) s.wall ∧ !icuAsserted s p h then 2 else v

/-- CC_STATE (R455). -/
def viewCc (s : State) (b : Blk) (p off : Nat) : Nat :=
  match off with
  | 0x40 => (List.range 4).foldl (fun m h => m + hartState s p h * 4 ^ h) 0
  | _ => s.regN b off

/-- PWR_DOMi (R417). -/
def viewPwr (s : State) (b : Blk) (p off : Nat) : Nat :=
  if 0x40 ≤ off ∧ off < 0x70 then
    let d := s.dom p ((off - 0x40) / 4)
    s.regN b off + b2n d.pendOn * 4 + d.st.code
  else s.regN b off

/-- THM_TEMP and THM_STATE (R418). -/
def viewThm (s : State) (b : Blk) (p off : Nat) : Nat :=
  let x := s.thm p
  match off with
  | 0x40 => unsigned 11 x.reading
  | 0x48 => b2n (x.dutyP != 0) * 32 + b2n (x.duty != 0) * 16 + x.duty
  | _ => s.regN b off

/-! ## The host interrupt tree (R376, R380) -/

/-- A block's host pending signal. -/
def hostPending (s : State) (b : Blk) : Bool :=
  writable s b && ((s.reg b 0x14 &&& ~~~(s.reg b 0x18)) != 0 || (s.reg b 0x20 &&& ~~~(s.reg b 0x24)) != 0)

/-- A number from a list of bits, lowest first. -/
def ofBits : List Bool → Nat
  | [] => 0
  | x :: xs => b2n x + 2 * ofBits xs

/-- HOST_STRp_k. -/
def hostStr (s : State) (p k : Nat) : Nat := ofBits ((List.range 32).map fun j => hostPending s (.str p (32 * k + j)))

/-- HOST_PNL_SUMp. -/
def hostPnlSum (s : State) (p : Nat) : Nat :=
  ofBits ((panelBlocks p).map (hostPending s)) + 2 ^ 31 * b2n ((List.range 9).any fun k => hostStr s p k != 0)

/-- HOST_SUMMARY. -/
def hostSummary (s : State) : Nat :=
  ofBits ((List.range 8).map fun p => hostPnlSum s p != 0) + 2 ^ 16 * ofBits (pkgBlocks.map (hostPending s))

/-- The views of the HOST block (R380, R381). -/
def viewHost (s : State) (off : Nat) : Nat :=
  if off = 0x40 then hostSummary s
  else if off = 0x50 then s.hostWaits.length % 2 ^ 16 * 2 ^ 16 + (s.hostGrants.length + openWindows s) % 256
  else if 0x60 ≤ off ∧ off < 0x80 then hostPnlSum s ((off - 0x60) / 4)
  else if 0x80 ≤ off ∧ off < 0x280 then (if (off - 0x80) % 0x40 < 0x24 then hostStr s ((off - 0x80) / 0x40) ((off - 0x80) % 0x40 / 4) else 0)
  else if off = 0x3000 then b2n (FMap.look {} s.fns 0).pba
  else s.regN .host off

/-- The views of a VFN block and of the SRV view of its function (R366, R382). -/
def viewVfn (s : State) (v off : Nat) : Nat :=
  match off with
  | 0x44 => (vfOf s v).first
  | 0x48 => (vfOf s v).count
  | 0x4C => v
  | 0x3000 => b2n (FMap.look {} s.fns v).pba
  | 0x10044 => s.srv.st.code
  | _ => s.regN (.vfn v) off

/-! ## Every register -/

/-- What the register at an offset of a block that is ON shows. -/
def viewBlock (s : State) (b : Blk) (off : Nat) : Nat :=
  if off < 0x40 then viewHeader s b off
  else match b with
    | .host => viewHost s off | .hold => viewHold s off | .clk => viewClk s off | .gov => viewGov s off | .cast => viewCast s off
    | .fab => viewFab s off | .srv => viewSrv s off | .boot => viewBoot s off | .flt => viewFlt s off | .evrPkg => viewEvr s b 8 off
    | .mgt => viewMgt s off | .pnl p => viewPnl s b p off | .eng p => viewEng s b p off | .sts p => viewSts s b p off
    | .row p => viewRow s b p off | .ply l => viewPly s b l off | .d2d p => viewD2d s b p off | .icu p => viewIcu s b p off
    | .cc p => viewCc s b p off | .evr p => viewEvr s b p off | .pwr p => viewPwr s b p off | .thm p => viewThm s b p off
    | .str p c => viewStr s b (coreKey p c) off | .vfn v => viewVfn s v off
    | .plan | .mem | .num _ | .sa _ | .skn _ | .hbm _ _ | .ni _ => s.regN b off

/-- A register as a read without side effects shows it: 0 for an absent panel or disabled slot (R4, R22) and for a reserved offset
(R256); while the domain is not ON only BLK_ID, BLK_VER, BLK_CAPS and BLK_STATE (R374). -/
def view (s : State) (b : Blk) (off : Nat) : Nat :=
  if !blkPresent s b || (b.fields off).isEmpty then 0
  else if blkPower s b != 2 && !([0x00, 0x04, 0x08, 0x10].contains off) then 0
  else viewBlock s b off

/-- The same at a BAR0 offset of the physical function. -/
def viewAt (s : State) (a : Nat) : Nat := match blockAt a with
  | some (b, off) => view s b off
  | none => 0

/-! ## Pins (R377, R484, R489, R495) -/

/-- An output is low: as boundary scan drives its cell, else as the package drives it (R489). -/
def outputLow (s : State) (cell : Nat) (low : Bool) : Bool := match s.pins.scan with
  | some v => !bitOf v cell
  | none => low

/-- HOST_IRQ_N is low; released while PERST_N is asserted. -/
def hostIrqLow (s : State) : Bool := outputLow s 1 (!s.pins.perst && s.regBit .host 0x44 0 && fnCondition s 0)

/-- FAULT_N is low; released while PERST_N is asserted. -/
def faultLow (s : State) : Bool := outputLow s 2 (!s.pins.perst && s.flt.stopped)

/-- THERMTRIP_N is low. -/
def thermtripLow (s : State) : Bool := outputLow s 3 s.pins.thermtrip

end Sys2Proof.Machine
end

