-- ==== Sys2Proof/Machine/Faults.lean ====
section
/-! DEFINITION. The stop and its clearing, the event recorders, the black-box copy, the in-service test and the control
complexes' watchdog and memory (R249, R455 to R476, R484, R485). -/

namespace Sys2Proof.Machine

/-! ## Event recorders (R467 to R471) -/

/-- The value that EVR_SELk of recorder r captures. -/
def captured (s : State) (r k : Nat) : Nat :=
  let v := s.regN (evrBlk r) (0x100 + 4 * k)
  let a := v % 2 ^ 29
  if !bitOf v 31 then 0
  else if r = 8 then viewAt s a
  else if 0x02000000 ≤ a then 0
  else viewAt s (0x10000000 + 0x02000000 * r + a)

/-- A record of recorder r (R468). -/
def evrBytes (s : State) (r : Nat) (e : Evr) (t : Trig) : List Byte :=
  let nreg := ((List.range 48).filter fun k => s.regBit (evrBlk r) (0x100 + 4 * k) 31).length
  leBytes 8 e.head ++ leBytes 8 t.time.toNat ++ leBytes 8 t.ptc.toNat ++ leBytes 1 t.bit ++ leBytes 1 t.merged ++ leBytes 1 nreg ++ leBytes 1 r
    ++ leBytes 1 t.typ ++ leBytes 1 t.blkBit ++ leBytes 2 t.inst ++ ((List.range 48).flatMap fun k => leBytes 4 (captured s r k))
    ++ List.replicate 24 0 ++ leBytes 8 e.head

/-- EVR_RECORD: the recorder takes the record of its trigger. -/
def evrRecord (r : Nat) (s : State) : State :=
  let e := FMap.look {} s.evrs r
  match e.pending with
  | none => s
  | some t =>
    { s with evrs := FMap.put {} s.evrs r { e with
        pending := none, head := e.head + 1, ring := FMap.put [] e.ring (e.head % 1024) (evrBytes s r e t) } }

/-- EVR_SOFT: a write of EVR_CTRL.SOFT. -/
def evrSoft (r : Nat) (s : State) : State := if r ≤ 8 then trigger s r 5 0 0 0 else s

/-- The stop record of a recorder (R460 step 6): a record that is being taken is ended first; with STOP_FREEZE no more follow. -/
def stopRecord (s0 : State) (r : Nat) : State :=
  let b := evrBlk r
  if blkPower s0 b != 2 then s0
  else
    let s := evrRecord r s0
    let e := FMap.look {} s.evrs r
    let e1 := if s.regBit b 0x44 3 ∧ !e.frozen then { e with pending := some ⟨s.time, s.ptc, 3, 0, 0, 0, e.merged⟩, merged := 0 } else e
    { s with evrs := FMap.put {} s.evrs r { e1 with frozen := e.frozen || s.regBit b 0x40 1 } }

/-! ## The stop (R460) -/

/-- A core after step 2: FAULTED, with every operation abandoned. -/
def Core.abandon (c : Core) (done : Bool) : Core :=
  { c with
    inflight := [], engFree := [], port := [], sa := {}, fifo := [], ret := [], zeroQ := [], hostQ := [], extHeld := 0, landings := [], collBuf := []
    stream := { c.stream with
      st := .faulted, tr := { c.stream.tr with pos := none, loops := [], fetch := {}, requested := false, slipPending := false }, old := none
      nextFetch := {}, launch := none, waiting := none, startDue := none, checked := [], ended := if done then c.stream.ended else none } }

/-- Step 2 on one core; frames that waited in a link's receive buffer for its landing port are discarded. -/
def abandonCore (s0 : State) (k : Nat) : State :=
  let s := dropForCore s0 k
  let c := s.core k
  let s1 := c.ret.foldl (fun s (b : RetBeat) => match b.link with
    | some l => if b.beat = 3 then freeRx s l 0 1 else s
    | none => s) s
  s1.setCore k (c.abandon (drained c && c.stream.checked.isEmpty))

/-- Step 3: a hold ends at the stop and is recorded. -/
def stopHold (s : State) (h : Hold) : State :=
  if h.frozen then recordHold s h h.time.toNat h.ptc.toNat h.ticks else recordHold s h s.time.toNat s.ptc.toNat 0

/-- Steps 3: both holds end. -/
def stopHolds (s : State) : State :=
  let s1 := match s.hold with
    | some h => stopHold s h
    | none => s
  let s2 := match s.nextHold with
    | some h => stopHold s1 h
    | none => s1
  { s2 with hold := none, nextHold := none }

/-- A write that has reached its controller goes on; what would return data, and a write that is still on its way, is abandoned (R460). -/
def Granule.stays (wall : Nat) (g : Granule) : Bool := match g.kind with
  | .write _ | .hostWrite _ => decide (g.arrival ≤ wall)
  | .hostRead _ _ => true
  | .read | .feed | .fetch => false

/-- Step 4: requests for data are discarded, and every HBM controller is in FREE mode. -/
def stopMemories (s : State) : State :=
  let s1 := (allStacks s).foldl (fun s e =>
    let h := s.hbmStack e.1 e.2
    enterFree (s.setHbmStack e.1 e.2 { h with queue := h.queue.filter (Granule.stays s.wall) }) e.1 e.2) s
  (List.range s.fuses.panels).foldl (fun s p => s.setStash p { s.stash p with reqs := [] })
    { s1 with hostWaits := [], hostGrants := [], crossings := [], d2dBuf := [] }

/-- Step 4: a packet of this package that has not started on its link is discarded. -/
def stopLocal (s : State) (l : Nat) : State :=
  let waits (d : TxData) : Bool := d.panelBuf.isSome && !d.started
  ((s.link l).dataQ.filter waits).foldl releaseData
    (s.setLink l { s.link l with dataQ := (s.link l).dataQ.filter fun d => !waits d })

/-- The package stops (R460); `hw` when the FLT block stops it by itself. -/
def stopPackage (hw : Bool) (s : State) : State :=
  let need := !allIdle s
  let s1 := stopHolds s
  let s2 := freeBufs (stopMemories ((s1.links.map (·.1)).foldl stopLocal (((allCores s1).filter (coreOn s1)).foldl abandonCore s1)))
  let s3 := raiseIrq { s2 with flt := { s2.flt with stopped := true, hwStop := hw, needBind := need, copied := false, istOpen := [] } } .flt 0
  (recorders s3).foldl stopRecord (platformEvent s3 10)

/-- FLT_STOP: firmware writes FLT_CTRL.STOP; then SRV_STATE follows and the fault notice is sent (R354, R464). -/
def fltStop (s : State) : State := if s.flt.stopped then s else stopNotice (servingStop (stopPackage false s))

/-- HW_STOP_TIMEOUT: 8 µs after a stop request was raised (R461). The requests are lost with the job, and no completion is sent (R354). -/
def hwStopTimeout (s : State) : State :=
  match s.flt.reqSince with
  | some t => if !s.flt.stopped && stopReq s && decide (t + 8000 ≤ s.time.toNat) then servingHwStop (stopPackage true s) else s
  | none => s

/-- HOST_STOP: a write of FLT_CTRL.HOST_STOP. -/
def hostStop (s : State) : State := raiseErr s .flt 4

/-- FW_ASSERT. -/
def fwAssert (s : State) : State := raiseErr s .flt 5

/-- FLT_CLEAR: a write of FLT_CTRL.CLEAR (R466). -/
def fltClear (s : State) : State :=
  if stopReq s || s.flt.bbBusy || s.bind.isSome || s.flt.needBind then s.countNoEffect .flt
  else
    let s1 := { s with
      flt := { s.flt with stopped := false, hwStop := false, first := none, reqSince := none, copied := false, noticeSrc := none }
      evrs := s.evrs.map fun e => (e.1, { e.2 with frozen := false }) }
    (if s.flt.stopped then platformEvent s1 10 else s1).setRegN .flt 0x74 0

/-! ## Black-box copy (R249, R472) -/

/-- The records of a recorder in ring order, oldest first. -/
def ringBytes (s : State) (r : Nat) : List Byte :=
  let e := FMap.look {} s.evrs r
  (List.range 1024).flatMap fun i =>
    let x := FMap.look [] e.ring ((e.head + i) % 1024)
    if x.isEmpty then List.replicate 256 0 else x

/-- The records that a copy holds: the package recorder, then those of the present panels. -/
def boxRecords (s : State) : List Byte := ringBytes s 8 ++ (List.range s.fuses.panels).flatMap (ringBytes s)

/-- The slot of the black-box area on the stack of panel q that the next copy takes, and the one after it. -/
def nextSlot (x : Stash) : Nat := if x.bbSeq = 0 then 0 else (x.bbLast + 1) % 8

/-- The stash address of a slot in the black-box memory. -/
def slotAddr (q slot : Nat) : Nat := 2 ^ 25 * q + 2 ^ 22 * slot

/-- A copy to the stack of panel q begins; it is abandoned when the stash interface is not ON or a program fails. The records are those
at its start (log entry 146). -/
def boxStart (fail : Bool) (s : State) (q : Nat) : State :=
  let s1 := { s with flt := { s.flt with box := s.flt.box ++ [⟨q, nextSlot (s.stash q), s.time.toNat, boxRecords s⟩] } }
  if fail || !domOn s q 10 then abandonBox s1 q else s1

/-- BLACK_BOX_COPY: once after each stop. -/
def blackBoxCopy (fail0 fail1 : Bool) (s : State) : State :=
  if !s.flt.stopped || !s.regBit .flt 0x40 4 || s.flt.copied || s.flt.bbBusy || s.pins.thermtrip then s
  else boxStart fail1 (boxStart fail0 { s with flt := { s.flt with bbBusy := true, copied := true } } 0) 1

/-- A copy is complete: the records from page 1 of its slot on, then page 0 with their digest, and the slot that follows is erased
(R249). -/
def boxEnd (s : State) (b : BoxCopy) : State :=
  let x := s.stash b.panel
  let next := (b.slot + 1) % 8
  let head := leBytes 8 x.bbSeq ++ leBytes 8 b.time ++ leBytes 4 b.records.length ++ sha3 b.records
  let m1 := Mem.store (Mem.forget s.bbMem (slotAddr b.panel b.slot) (2 ^ 22)) (slotAddr b.panel b.slot + 4096) b.records
  let m2 := Mem.store m1 (slotAddr b.panel b.slot) head
  { s.setStash b.panel { x with
      bbSeq := x.bbSeq + 1, bbLast := b.slot, bbValid := (x.bbValid.filter fun i => i != b.slot && i != next) ++ [b.slot] } with
    bbMem := Mem.forget m2 (slotAddr b.panel next) (2 ^ 22) }

/-- BB_DONE: the copies that were not abandoned are complete. -/
def bbDone (s : State) : State :=
  if s.flt.bbBusy then
    let s1 := s.flt.box.foldl boxEnd s
    raiseIrq { s1 with flt := { s1.flt with bbBusy := false, box := [] } } .flt 1
  else s

/-! ## In-service test (R473 to R476) -/

/-- The bounds of a window entry (R473). -/
def istEntryOk (s : State) (e : List Word) : Bool :=
  let w (n : Nat) : Nat := (e.getD n 0).toNat
  let period := w 4 + 2 ^ 32 * w 5
  (physOf s (w 0)).isSome && decide (4096 ≤ w 1) && (period == 0 || decide (w 1 ≤ period)) && w 7 == 0

/-- A write of FLT_IST_DATA7: the staged entry is written, unless it breaks the bounds. -/
def istWrite (s0 : State) (w : Word) : State :=
  let s := s0.setReg .flt 0x9C w
  let e := (List.range 8).map fun n => s.reg .flt (0x80 + 4 * n)
  if istEntryOk s e then { s with flt := { s.flt with istTable := FMap.put [] s.flt.istTable (s.regN .flt 0x7C % 2 ^ 12) e } } else s.countNoEffect .flt

/-- The next window of an entry: its core, first tick and length. Windows of PERIOD ≠ 0 with COUNT 0 go on until the job binds off (R473):
`istWindow` looks at that. -/
def istNext (s : State) (i : Nat) : Option (Nat × Nat × Nat) :=
  let e := FMap.look [] s.flt.istTable i
  let w (n : Nat) : Nat := (e.getD n 0).toNat
  let n := FMap.look 0 s.flt.istRuns i
  let period := w 4 + 2 ^ 32 * w 5
  let left := if period = 0 then n = 0 else w 6 = 0 ∨ n < w 6
  if e.isEmpty ∨ ¬left then none
  else (physOf s (w 0)).map fun k => (k, s.flt.jobBase.toNat + w 2 + 2 ^ 32 * w 3 + n * period, w 1)

/-- A window of the job can start: its job runs and is not being bound off (R473), and the test is enabled (R475). -/
def istMayStart (s : State) : Bool :=
  s.regBit .flt 0x70 31 && s.castSt == .released && s.jobLive && !(s.bind.any fun b => jobLot s == some b.lot) && ptcRuns s

/-- The slice of a window whose signature will not match. -/
def istBad : IstResult → Option Nat
  | .pass => none
  | .mismatch n => some n

/-- IST_WINDOW: the next window of an entry starts on its core, whose descriptors must all be complete (R475). Its slices run as PTC
advances (`istTick`). -/
def istWindow (i : Nat) (r : IstResult) (s : State) : State :=
  match istNext s i with
  | none => s
  | some (k, start, len) =>
    if !istMayStart s || decide (s.ptc.toNat < start) then s
    else
      let s1 := { s with flt := { s.flt with
        istRuns := FMap.put 0 s.flt.istRuns i (FMap.look 0 s.flt.istRuns i + 1)
        istOpen := FMap.put [] s.flt.istOpen k (FMap.look [] s.flt.istOpen k ++ [⟨start, len, istBad r⟩]) } }
      if drained (s.core k) then s1 else istFault s1 k true 0

/-! ## Control complexes (R455, R459) -/

/-- CC_WATCHDOG. -/
def ccWatchdog (p : Nat) (s : State) : State :=
  let ms := s.regN (.cc p) 0x44 % 2 ^ 16
  if ms ≠ 0 ∧ FMap.look 0 s.ccKick p + ms * 1000000 ≤ s.time.toNat then
    raiseErr { s with ccKick := FMap.put 0 s.ccKick p s.time.toNat } (.cc p) 1
  else s

/-- CC_WDOG_KICK. -/
def ccWdogKick (p : Nat) (s : State) : State := { s with ccKick := FMap.put 0 s.ccKick p s.time.toNat }

/-- LOCAL_SRAM_SCRUB: corrected words are counted, a double-bit error is CC_SRAM_UNCORR. -/
def localSramScrub (p : Nat) (found : List WordError) (s : State) : State :=
  found.foldl (fun s e => if 0x200000 ≤ e.addr then s else if e.double then raiseErr s (.cc p) 0 else s.incReg (.cc p) 0x48) s

/-- BLACK_BOX_COPY. -/
def execBlackBoxCopy (fail0 fail1 : Bool) (s : State) := act s (blackBoxCopy fail0 fail1)
/-- FLT_STOP. -/
def execFltStop (s : State) := actBy 65 s fltStop
/-- HW_STOP_TIMEOUT. -/
def execHwStopTimeout (s : State) := act s hwStopTimeout
/-- HOST_STOP. -/
def execHostStop (s : State) := actBy 0 s hostStop
/-- FLT_CLEAR. -/
def execFltClear (s : State) := actBy 0 s fltClear
/-- IST_WINDOW. -/
def execIstWindow (entry : Nat) (r : IstResult) (s : State) := act s (istWindow entry r)
/-- EVR_RECORD. -/
def execEvrRecord (r : Nat) (s : State) := act s (evrRecord r)
/-- EVR_SOFT. -/
def execEvrSoft (r : Nat) (s : State) := actBy 0 s (evrSoft r)
/-- CC_WATCHDOG. -/
def execCcWatchdog (p : Nat) (s : State) := act s fun s => onBlock s (.cc p) (ccWatchdog p)
/-- CC_WDOG_KICK. -/
def execCcWdogKick (p : Nat) (s : State) := actBy (65 + p) s fun s => onBlock s (.cc p) (ccWdogKick p)
/-- BB_DONE. -/
def execBbDone (s : State) := act s bbDone
/-- FW_ASSERT. -/
def execFwAssert (s : State) := act s fwAssert
/-- LOCAL_SRAM_SCRUB. -/
def execLocalSramScrub (p : Nat) (found : List WordError) (s : State) := act s fun s => onBlock s (.cc p) (localSramScrub p found)

end Sys2Proof.Machine
end

