-- ==== Sys2Proof/Machine/Mgmt.lean ====
section
/-! DEFINITION. Management: MCTP, PLDM, firmware update, SPDM attestation and the supply rails (R477 to R483, R486, R494, R495). Where DSP0236, DSP0248 or DSP0274 fix the bytes of an answer, `Config.mgmtResponse` gives them from what the
manual says the answer carries. -/

namespace Sys2Proof.Machine

/-! ## MCTP (R477) -/

/-- Firmware runs on the lead complex: it is the endpoint. -/
def fwRuns (s : State) : Bool := s.boot.stage == .fwStart || s.boot.stage == .ready || s.boot.stage == .failed

/-- A binding carries messages. -/
def bindingUp (s : State) : MctpBinding → Bool
  | .i3c => fwRuns s && mgtBus s == 1
  | .smbus => fwRuns s && mgtBus s == 2
  | .vdm => fwRuns s && s.regBit .mgt 0x40 3

/-- Change the management state. -/
def State.modMgmt (s : State) (f : Mgmt → Mgmt) : State := { s with mgmt := f s.mgmt }

/-- I3C_ADDRESS_ASSIGNED: the I3C binding becomes active, unless the package has fallen back to SMBus. -/
def i3cAddressAssigned (addr : Nat) (s : State) : State :=
  if s.regBit .mgt 0x40 1 && s.mgmt.bus != 2 then s.modMgmt fun m => { m with i3cAddr := addr % 128, bus := 1 } else s

/-- SMBUS_FALLBACK: no I3C address within 1 s of READY. -/
def smbusFallback (s : State) : State :=
  match s.mgmt.readyAt with
  | some t => if s.mgmt.bus = 0 ∧ s.regBit .mgt 0x40 2 ∧ t + 1000000000 ≤ s.time.toNat then s.modMgmt fun m => { m with bus := 2 } else s
  | none => s

/-- Answer a request that arrived over a binding, once its effect is done. -/
def mctp (b : MctpBinding) (code : Nat) (data : State → List Byte) (f : State → State) (s : State) : State :=
  if !bindingUp s b then s
  else
    let s1 := f s
    send s1 (.answer b (Config.mgmtResponse code (data s1)))

/-- SET_ENDPOINT_ID: 0 and 0xFF name no endpoint. -/
def setEndpointId (b : MctpBinding) (eid : Nat) (s : State) : State :=
  mctp b 0x01 (fun s => leBytes 1 s.mgmt.eid) (fun s =>
    if eid % 256 = 0 ∨ eid % 256 = 255 then s else raiseIrq (s.modMgmt fun m => { m with eid := eid % 256 }) .mgt 0) s

/-- GET_ENDPOINT_ID. -/
def getEndpointId (b : MctpBinding) (s : State) : State := mctp b 0x02 (fun s => leBytes 1 s.mgmt.eid) id s

/-- GET_ENDPOINT_UUID. -/
def getEndpointUuid (b : MctpBinding) (s : State) : State := mctp b 0x03 (fun _ => Config.endpointUuid) id s

/-- GET_MCTP_VERSION_SUPPORT: version 1.3 for the types the endpoint supports. -/
def getMctpVersionSupport (b : MctpBinding) (typ : Nat) (s : State) : State :=
  mctp b 0x04 (fun _ => leBytes 1 typ ++ [1, 3]) id s

/-- GET_MESSAGE_TYPE_SUPPORT: 0 (control), 1 (PLDM) and 5 (SPDM). -/
def getMessageTypeSupport (b : MctpBinding) (s : State) : State := mctp b 0x05 (fun _ => [0, 1, 5]) id s

/-! ## PLDM (R478 to R480) -/

/-- SET_EVENT_RECEIVER. -/
def setEventReceiver (b : MctpBinding) (eid : Nat) (s : State) : State :=
  mctp b 0x104 (fun _ => []) (fun s => s.modMgmt fun m => { m with receiver := some (b, eid % 256) }) s

/-- PLDM_EFFECTER_WRITE: effecter 12 acts as a host write of PWR_LIMIT; values out of its range are refused. -/
def pldmEffecterWrite (watts : Nat) (s : State) : State :=
  if fwRuns s && decide (2600 ≤ watts) && decide (watts ≤ 4800) then pwrLimitWrite (BitVec.ofNat 32 watts) s else s

/-- Program an image into a boot slot. -/
def programSlot (s : State) (slot : Nat) (bytes : List Byte) : State :=
  { s with bootMem := Mem.store (Mem.forget s.bootMem (2 ^ 21 * slot) (2 ^ 21)) (2 ^ 21 * slot) bytes }

/-- The received image as a reader. -/
def listRead (bytes : List Byte) (off n : Nat) : List Byte := (bytes.drop off).take n

/-- PLDM_FIRMWARE_UPDATE: an image that passes R424 goes to slots 0 and 2, after the copies that they held have gone to 1 and 3. -/
def pldmFirmwareUpdate (image : List Byte) (s : State) : State :=
  if !fwRuns s then s
  else if imgCheck s (listRead image) ≠ 0 ∨ imgLen (listRead image) ≠ image.length ∨ !domOn s 0 10 ∨ !domOn s 1 10 then
    send s (.answer .vdm (Config.mgmtResponse 0x517 [1]))
  else
    let s1 := programSlot s 1 (Mem.bytes s.bootMem 0 (2 ^ 21))
    let s2 := programSlot s1 3 (Mem.bytes s.bootMem (2 ^ 22) (2 ^ 21))
    raiseIrq (programSlot (programSlot s2 0 image) 2 image) .mgt 1

/-- SVN_COMMIT: a write of MGT_CTRL.SVN_COMMIT (R481). -/
def svnCommit (s : State) : State :=
  if s.boot.stage = .ready ∧ s.fuses.svnMin < s.boot.svn then { s with fuses := { s.fuses with svnMin := s.boot.svn } } else raiseErr s .mgt 1

/-! ## SPDM (R482, R483) -/

/-- The path of an SPDM request carries messages. -/
def pathUp (s : State) : SpdmPath → Bool
  | .mctp b => bindingUp s b
  | .doe => fwRuns s

/-- A well-formed SPDM request: it has its four header bytes with its request code, and fits the endpoint's buffer (R482, R486). -/
def requestOk (code : Nat) (req : List Byte) : Bool :=
  decide (4 ≤ req.length) && (req.getD 1 0).toNat == code && decide (req.length ≤ 64 + Config.mctpSpare)

/-- An SPDM request of the given code is answered by `f`; a malformed or overflowing MCTP message is dropped (R486), and a DOE object of
this kind is not answered. -/
def spdmRequest (via : SpdmPath) (code : Nat) (req : List Byte) (f : State → State) (s : State) : State :=
  if !pathUp s via then s
  else if requestOk code req then f s
  else match via with
    | .mctp _ => raiseErr s .mgt 0
    | .doe => s

/-- An SPDM exchange: the response joins the transcript, which a GET_VERSION starts anew. -/
def spdm (via : SpdmPath) (code : Nat) (fresh : Bool) (req : List Byte) (data : List Byte) (s : State) : State :=
  spdmRequest via code req (fun s =>
    let resp := Config.mgmtResponse code (req ++ data)
    send (s.modMgmt fun m => { m with transcript := (if fresh then [] else m.transcript) ++ req ++ resp, signed := if fresh then none else m.signed })
      (.spdm via resp)) s

/-- A signed response: an RSA-3072 signature over the SHA-384 of the transcript; GET_SLH_SIG later signs the same hash. -/
def spdmSigned (via : SpdmPath) (code : Nat) (req : List Byte) (data : List Byte) (s : State) : State :=
  spdmRequest via code req (fun s =>
    let resp := Config.mgmtResponse code (req ++ data)
    let hash := sha384 (s.mgmt.transcript ++ req ++ resp)
    send (s.modMgmt fun m => { m with transcript := [], signed := some hash }) (.spdm via (resp ++ Config.attestSign 0 hash))) s

/-- A measurement block (R483). -/
def measurement (s : State) (ix : Nat) : List Byte :=
  match ix with
  | 1 => sha384 s.boot.image
  | 2 => leBytes 2 s.boot.version ++ leBytes 1 s.boot.svn ++ leBytes 1 s.fuses.svnMin
  | 3 => ((List.range 8).flatMap fun p => leBytes 4 (view s (.pnl p) 0x40)) ++ leBytes 8 s.fuses.selfId.toNat
  | 4 => if s.boot.loaded then s.boot.patternDigest else List.replicate 32 0
  | 5 => if s.boot.loaded then s.boot.weightDigest else List.replicate 32 0
  | 6 => Config.bootRomDigest
  | _ => []

/-- The measurements that an index asks for: none for 0, every block for 0xFF. -/
def measurements (s : State) (ix : Nat) : List Byte :=
  if ix = 0xFF then (List.range 6).flatMap fun i => leBytes 1 (i + 1) ++ measurement s (i + 1) else leBytes 1 ix ++ measurement s ix

/-- GET_VERSION. -/
def spdmVersion (via : SpdmPath) (req : List Byte) (s : State) : State := spdm via 0x84 true req [] s
/-- GET_CAPABILITIES. -/
def spdmCapabilities (via : SpdmPath) (req : List Byte) (s : State) : State := spdm via 0xE1 false req [] s
/-- NEGOTIATE_ALGORITHMS. -/
def spdmAlgorithms (via : SpdmPath) (req : List Byte) (s : State) : State := spdm via 0xE3 false req [] s
/-- GET_DIGESTS. -/
def spdmDigests (via : SpdmPath) (req : List Byte) (s : State) : State := spdm via 0x81 false req [] s
/-- GET_CERTIFICATE: slot 0 holds the RSA chain, slot 1 the SLH-DSA chain. -/
def spdmCertificate (via : SpdmPath) (slot : Nat) (req : List Byte) (s : State) : State := spdm via 0x82 false req (leBytes 1 slot) s
/-- CHALLENGE. -/
def spdmChallenge (via : SpdmPath) (slot : Nat) (req : List Byte) (s : State) : State := spdmSigned via 0x83 req (leBytes 1 slot) s
/-- GET_MEASUREMENTS with signature. -/
def spdmMeasurements (via : SpdmPath) (slot ix : Nat) (req : List Byte) (s : State) : State :=
  spdmSigned via 0xE0 req (leBytes 1 slot ++ measurements s ix) s
/-- GET_SLH_SIG, a vendor-defined request: the SLH-DSA signature of the latest signed transcript. -/
def spdmSlhSig (via : SpdmPath) (req : List Byte) (s : State) : State :=
  spdmRequest via 0xFE req (fun s => send s (.spdm via (match s.mgmt.signed with
    | some h => Config.attestSign 1 h
    | none => Config.mgmtResponse 0xFE req))) s

/-! ## Supply rails (R494, R495) -/

/-- SUPPLY_RAIL_CHANGE: a rail leaves its range, or enters it; THERMTRIP_N is released when V3P3 goes. -/
def supplyRailChange (r : Rail) (inRange : Bool) (s : State) : State :=
  let p := s.pins
  { s with pins := if inRange then { p with badRails := p.badRails.filter (· != r) }
                   else { p with badRails := if p.badRails.contains r then p.badRails else p.badRails ++ [r]
                                 spoiled := p.spoiled || !p.perst
                                 thermtrip := p.thermtrip && r != .v3p3 } }

/-- SVN_COMMIT. -/
def execSvnCommit (s : State) := actBy 0 s svnCommit
/-- SMBUS_FALLBACK. -/
def execSmbusFallback (s : State) := act s smbusFallback
/-- SET_ENDPOINT_ID. -/
def execSetEndpointId (b : MctpBinding) (eid : Nat) (s : State) := act s (setEndpointId b eid)
/-- GET_ENDPOINT_ID. -/
def execGetEndpointId (b : MctpBinding) (s : State) := act s (getEndpointId b)
/-- GET_MCTP_VERSION_SUPPORT. -/
def execGetMctpVersionSupport (b : MctpBinding) (typ : Nat) (s : State) := act s (getMctpVersionSupport b typ)
/-- GET_MESSAGE_TYPE_SUPPORT. -/
def execGetMessageTypeSupport (b : MctpBinding) (s : State) := act s (getMessageTypeSupport b)
/-- GET_ENDPOINT_UUID. -/
def execGetEndpointUuid (b : MctpBinding) (s : State) := act s (getEndpointUuid b)
/-- SET_EVENT_RECEIVER. -/
def execSetEventReceiver (b : MctpBinding) (eid : Nat) (s : State) := act s (setEventReceiver b eid)
/-- PLDM_EFFECTER_WRITE. -/
def execPldmEffecterWrite (watts : Nat) (s : State) := act s (pldmEffecterWrite watts)
/-- PLDM_FIRMWARE_UPDATE. -/
def execPldmFirmwareUpdate (image : List Byte) (s : State) := act s (pldmFirmwareUpdate image)
/-- GET_VERSION. -/
def execGetVersion (via : SpdmPath) (req : List Byte) (s : State) := act s (spdmVersion via req)
/-- GET_CAPABILITIES. -/
def execGetCapabilities (via : SpdmPath) (req : List Byte) (s : State) := act s (spdmCapabilities via req)
/-- NEGOTIATE_ALGORITHMS. -/
def execNegotiateAlgorithms (via : SpdmPath) (req : List Byte) (s : State) := act s (spdmAlgorithms via req)
/-- GET_DIGESTS. -/
def execGetDigests (via : SpdmPath) (req : List Byte) (s : State) := act s (spdmDigests via req)
/-- GET_CERTIFICATE. -/
def execGetCertificate (via : SpdmPath) (slot : Nat) (req : List Byte) (s : State) := act s (spdmCertificate via slot req)
/-- CHALLENGE. -/
def execChallenge (via : SpdmPath) (slot : Nat) (req : List Byte) (s : State) := act s (spdmChallenge via slot req)
/-- GET_MEASUREMENTS. -/
def execGetMeasurements (via : SpdmPath) (slot ix : Nat) (req : List Byte) (s : State) := act s (spdmMeasurements via slot ix req)
/-- GET_SLH_SIG. -/
def execGetSlhSig (via : SpdmPath) (req : List Byte) (s : State) := act s (spdmSlhSig via req)
/-- I3C_ADDRESS_ASSIGNED. -/
def execI3cAddressAssigned (addr : Nat) (s : State) := act s (i3cAddressAssigned addr)
/-- SUPPLY_RAIL_CHANGE: what lies at the lands does not wait for the package. -/
def execSupplyRailChange (r : Rail) (inRange : Bool) (s : State) : Host.Outcome State Fault Refusal := .next (supplyRailChange r inRange s)

end Sys2Proof.Machine
end

