-- ==== Sys2Proof/Machine/ConfigSpace.lean ====
section
/-! DEFINITION. Configuration space of the functions (R359, R360, R364, R377). The manual says what the capabilities report and leaves their
structures to PCI Express; the place of each capability is PRESUMED (log entry 8). -/

namespace Sys2Proof.Machine

/-- log2 of the size of BAR4 (R258, R364). -/
def aptLog (s : State) : Nat := s.regN .mem 0x48 % 64

/-- Bits [31:n] of a dword. -/
def above (n : Nat) : Nat := if n < 32 then 2 ^ 32 - 2 ^ n else 0

/-- The bits of a dword of configuration space that a write stores. The rest is fixed, or belongs to the machine. -/
def configMask (s : State) (fn n : Nat) : Nat :=
  let pf := fn = 0
  match n with
  | 0x04 => if pf then 0x102 else 0                       -- memory space enable, SERR# enable
  | 0x10 => if pf then above 29 else 0                    -- BAR0, 512 MiB
  | 0x18 => if pf then above 30 else 0                    -- BAR2, 1 GiB
  | 0x20 => if pf then above (aptLog s) else 0            -- BAR4
  | 0x24 => if pf then above (aptLog s - 32) else 0
  | 0x14 | 0x1C => if pf then 0xFFFFFFFF else 0
  | 0x3C => 0xFF
  | 0x78 => 0x70FF                                        -- Device Control
  | 0x80 => if pf then 0xC0 else 0                        -- Link Control
  | 0x98 => 0x1010                                        -- Device Control 2
  | 0x108 | 0x10C | 0x114 => 0x01FFF030                   -- AER masks and severity
  | 0x118 => 0x140
  | 0x170 => if pf then 0x18 else 0                       -- SR-IOV control
  | 0x178 => if pf ∧ !(FMap.look {} s.fns 0).vfEnable then 0x7F else 0      -- NumVFs
  | 0x18C => if pf then above 17 else 0                   -- VF BAR0, 128 KiB
  | 0x194 => if pf then above 26 else 0                   -- VF BAR2, 64 MiB
  | 0x190 | 0x198 => if pf then 0xFFFFFFFF else 0
  | _ => 0

/-- The reset value of the stored bits: relaxed ordering is enabled and read requests are of up to 512 bytes (PCI Express). -/
def configReset (n : Nat) : Word := if n = 0x78 then 0x2010 else 0

/-- The stored bits of a dword. -/
def configStored (s : State) (fn n : Nat) : Nat := (FMap.look (configReset n) (FMap.look {} s.fns fn).cfg n).toNat

/-- The vectors of the link as the Link Status register shows them: speed and width of HOST_LINK (R381). -/
def linkStatus (s : State) : Nat := s.regN .host 0x48 % 8 + bits (s.regN .host 0x48) 8 5 * 16

/-- The bits of a dword that a write does not store. -/
def configFixed (s : State) (fn n : Nat) : Nat :=
  let f := FMap.look {} s.fns fn
  let pf := fn = 0
  let onlyPf (v : Nat) : Nat := if pf then v else 0
  match n with
  | 0x00 => (if pf then 0x4E08 else 0x4E09) * 2 ^ 16 + Config.vendorId.toNat
  | 0x04 => 0x100000 + b2n f.bme * 4                       -- capabilities list, Bus Master Enable
  | 0x08 => 0x12000002
  | 0x10 | 0x18 => onlyPf 4                                -- 64-bit memory, not prefetchable (R364)
  | 0x20 => onlyPf 0xC                                     -- 64-bit memory, prefetchable
  | 0x34 => 0x40
  | 0x40 => 0x00037001                                     -- power management: no D1, no D2, no PME
  | 0x44 => 8 + (if f.d3hot then 3 else 0)                 -- no reset on the way to D0
  | 0x70 => 0x0002B010                                     -- PCI Express endpoint
  | 0x74 => 0x10008022                                     -- payload of up to 512 bytes, extended tags, function level reset
  | 0x7C => onlyPf 0x106                                   -- 64.0 GT/s, x16, no ASPM
  | 0x80 => onlyPf (linkStatus s * 2 ^ 16)
  | 0x94 => 0x30000                                        -- 10-bit tags, as completer and requester
  | 0x9C => onlyPf 0x7E                                    -- 2.5 to 64.0 GT/s
  | 0xB0 => 0x11 + b2n f.msixEnable * 2 ^ 31 + b2n f.funcMask * 2 ^ 30       -- MSI-X, one vector
  | 0xB4 => (if pf then Blk.host.base else 0) + 0x2000
  | 0xB8 => (if pf then Blk.host.base else 0) + 0x3000
  | 0x100 => if pf then 0x14820001 else 0x15820001         -- AER
  | 0x148 => onlyPf 0x15810003                             -- device serial number (R359)
  | 0x14C => onlyPf (s.fuses.selfId.toNat % 2 ^ 32 / 32 * 32)
  | 0x150 => onlyPf (s.fuses.selfId.toNat / 2 ^ 32)
  | 0x158 => if pf then 0x1681000E else 0x0001000E         -- ARI
  | 0x168 => onlyPf 0x1B010010                             -- SR-IOV
  | 0x170 => onlyPf (b2n f.vfEnable)
  | 0x174 => onlyPf 0x00400040                             -- TotalVFs and InitialVFs of 64
  | 0x17C => onlyPf 0x00010001                             -- First VF Offset 1, VF Stride 1
  | 0x180 => onlyPf 0x4E090000
  | 0x184 | 0x188 => onlyPf 1                              -- pages of 4 KiB
  | 0x18C | 0x194 => onlyPf 4
  | 0x1B0 => onlyPf 0x1C010015                             -- Resizable BAR: 1 GiB to 1 TiB
  | 0x1B4 => onlyPf 0x01FFC000
  | 0x1B8 => onlyPf (4 + 2 ^ 5 + (aptLog s - 20) * 2 ^ 8)
  | 0x1C0 => onlyPf 0x0002002E                             -- DOE
  | _ => 0

/-- A dword of configuration space. -/
def configRead (s : State) (fn n : Nat) : Nat := configFixed s fn n ||| (configStored s fn n &&& configMask s fn n)

/-- A write of Device Control: a reserved payload or request size keeps the old one (R12, R359); its bit 15 asks for a function level reset
(R367). -/
def deviceControl (fn : Nat) (v : Nat) (s : State) : State :=
  let old := configStored s fn 0x78
  let v1 := if bits v 5 3 ≤ 2 then v else setBits v 5 3 (bits old 5 3)
  let v2 := if bits v1 12 3 ≤ 5 then v1 else setBits v1 12 3 (bits old 12 3)
  let f := FMap.look {} s.fns fn
  let s1 := { s with fns := FMap.put {} s.fns fn { f with cfg := FMap.put (configReset 0x78) f.cfg 0x78 (BitVec.ofNat 32 (v2 &&& 0x70FF)) } }
  if !bitOf v 15 then s1 else if fn = 0 then pfReset .flr s1 else flrVf fn s1

/-- A write of PowerState: D0 and D3hot are there, another value changes nothing (R359). On the way to D0 the messages that D3hot held back
are due (R377). -/
def powerState (fn v : Nat) (s : State) : State :=
  let f := FMap.look {} s.fns fn
  if v % 4 = 3 then { s with fns := FMap.put {} s.fns fn { f with d3hot := true } }
  else if v % 4 = 0 then unmasked fn { s with fns := FMap.put {} s.fns fn { f with d3hot := false } }
  else s

/-- A write of a dword of configuration space. -/
def configWrite (fn n : Nat) (w : Word) (s : State) : State :=
  let v := w.toNat
  let f := FMap.look {} s.fns fn
  let store (f : Fn) : State := { s with fns := FMap.put {} s.fns fn f }
  let kept : Fn := { f with cfg := FMap.put (configReset n) f.cfg n (BitVec.ofNat 32 (v &&& configMask s fn n)) }
  match n with
  | 0x04 => store { kept with bme := bitOf v 2 }
  | 0x44 => powerState fn v s
  | 0x78 => deviceControl fn v s
  | 0xB0 => unmasked fn (store { f with msixEnable := bitOf v 31, funcMask := bitOf v 30 })
  | 0x170 => if fn = 0 then store { kept with vfEnable := bitOf v 0 } else s
  | 0x178 => if fn = 0 ∧ v % 2 ^ 16 ≤ 64 ∧ !f.vfEnable then store kept else s
  | 0x1B8 => if fn = 0 ∧ 10 ≤ bits v 8 6 ∧ bits v 8 6 ≤ 20 then s.setRegN .mem 0x48 (bits v 8 6 + 20) else s
  | _ => if configMask s fn n = 0 then s else store kept

/-- Virtual function v is there: VF Enable is 1, and NumVFs counts it (R359). -/
def vfPresent (s : State) (v : Nat) : Bool :=
  (FMap.look {} s.fns 0).vfEnable && decide (v ≤ configStored s 0 0x178 % 2 ^ 16)

end Sys2Proof.Machine
end

