-- ==== Sys2Proof/Machine/ServingStep.lean ====
section
/-! DEFINITION. Serving steps and forecasting batches (R344 to R349, R352, R353, R355, R356). -/

namespace Sys2Proof.Machine

/-! ## Cores of a segment -/

/-- A core has finished its segment: no launch waits, it is IDLE, and it is drained (R72). -/
def coreFinished (s : State) (k : Nat) : Bool :=
  let c := s.core k
  c.stream.st == .idle && c.stream.launch.isNone && drained c

/-- The cores of the step segment with their charts. -/
def segmentCores (s : State) (p : SrvParams) : List (Nat × Nat) :=
  ((List.range p.stepCharts.length).zip p.stepCharts).filterMap fun (v, chart) => (physOf s v).map fun k => (k, chart)

/-- Launch a chart on a core: STR_LAUNCH_CHART, STR_LAUNCH_START and GO, with TIMED as last written (R69). -/
def launchCore (start : Nat) (s : State) (e : Nat × Nat) : State :=
  let b := strBlk e.1
  strGo (s.regBit b 0xA0 1) e.1 ((s.setReg64 b 0x90 e.2).setReg64 b 0x98 start)

/-! ## Step records (R346) -/

/-- A step record. -/
structure StepRecord where
  ctx : Nat
  accept : Nat
  emit : Nat
  stop : Bool
  tokens : List Nat
deriving DecidableEq, Repr

/-- Read the record of a slot. -/
def readRecord (s : State) (p : SrvParams) (i : Nat) : StepRecord :=
  let a := p.stepRecords + 64 * i
  let n := Mem.nat s.hbm (a + 5) 1
  { ctx := Mem.nat s.hbm a 4, accept := Mem.nat s.hbm (a + 4) 1, emit := n, stop := Mem.nat s.hbm (a + 6) 1 == 1
    tokens := (List.range (Nat.min n 9)).map fun j => Mem.nat s.hbm (a + 8 + 4 * j) 4 }

/-- A record is valid for what its slot ran (R346). -/
def recordOk (s : State) (p : SrvParams) (u : SlotUse) (r : StepRecord) : Bool :=
  r.ctx == u.ctx && decide (r.emit ≤ 9) && r.tokens.all (fun t => decide (t < p.vocab)) &&
    (match u.chunk, s.ctx u.ctx with
      | none, _ => decide (r.accept ≤ u.k) && r.emit == r.accept + 1
      | some n, some x => r.accept == 0 && r.emit == (if x.committed + n = x.promptTotal then 1 else 0)
      | some _, none => r.accept == 0 && decide (r.emit ≤ 1))

/-! ## Applying a record (R347, R349, R352, R353) -/

/-- The tokens that a record writes, and how the request then ends: EOS or LIMIT. -/
def tokensOut (p : SrvParams) (x : Ctx) (r : StepRecord) : List Nat × Option Nat :=
  let room := r.tokens.take (x.maxNew - x.tokens)
  match (if r.stop then room.findIdx? (· == p.eos) else none) with
  | some i => (room.take (i + 1), some 8)
  | none => (room, if x.maxNew ≤ x.tokens + room.length then some 16 else if r.stop then some 8 else none)

/-- The timing of a write of tokens (R352, R353). -/
def timeTokens (now : Nat) (q : Option Qp) (x : Ctx) : Ctx :=
  let tbt := (q.map (·.tbt)).getD 0
  let next := if tbt = 0 then none else some (now + tbt * 1000)
  if x.tFirst = 0 then
    { x with tFirst := now, tLast := now, deadline := next, lateFirst := match x.deadline with
        | some d => decide (d < now)
        | none => false }
  else
    let gap := now - x.tLast
    { x with tLast := now, deadline := next, maxGap := Nat.max x.maxGap gap, lateGap := x.lateGap || (tbt != 0 && decide (tbt * 1000 < gap)) }

/-- Write tokens to the host, count and time them; a PARTIAL completion when TOKENS passes a multiple of STREAM_EVERY, and the final
one when the request ends. -/
def writeTokens (c : Nat) (x : Ctx) (ts : List Nat) (fin : Option Nat) (ok : Bool) (s : State) : State :=
  let fn := qpOwner s x.qp
  if ts.isEmpty then s.setCtx c x
  else if !ok || !hostReach s fn then endCtx (s.setCtx c x) c 0x16 0
  else
    let s1 := hostPut s fn (x.out + 4 * x.tokens) (ts.flatMap (leBytes 4))
    let q := s1.qp x.qp
    let x1 := timeTokens s1.time.toNat q { x with tokens := x.tokens + ts.length }
    let s2 := s1.setCtx c x1
    let every := (q.map (·.streamEvery)).getD 0
    let s3 := if every != 0 && decide (x.tokens / every < x1.tokens / every) then complete s2 x.qp (complOf s2 c x1 0 4 false) else s2
    match fin with
    | some f => endCtx s3 c 0 f
    | none => s3

/-- A CANCEL of the context was taken, or its queue pair goes. -/
def doomed (s : State) (c : Nat) (x : Ctx) : Bool :=
  s.srv.taken.any fun t => match t.act with
    | .cancel target => t.qp == x.qp && (findRequest s x.qp target).any fun e => e.1 == c
    | .endAll victim _ => victim == x.qp
    | _ => false

/-- Apply the record of one slot: COMMITTED and IN_TOKEN, the tokens to the host, and the spans that are left. The tokens of a request
that a taken command cancels are not written (R351), unless they end it. -/
def applyRecord (p : SrvParams) (failed : List Nat) (s : State) (e : SlotUse × StepRecord) : State :=
  let (u, r) := e
  match s.ctx u.ctx with
  | none => s
  | some x =>
    if !x.open then s
    else
      let adv := match u.chunk with
        | some n => n
        | none => r.accept + 1
      let ends := u.chunk.isSome && x.committed + adv == x.promptTotal
      let x1 : Ctx := { x with
        committed := x.committed + adv, inToken := r.tokens.getLast?.getD x.inToken
        st := if ends && x.isPrefix.isNone then .decode else x.st }
      let (ts, fin) := if x.isPrefix.isSome then ([], none) else tokensOut p x r
      let quiet := doomed s u.ctx x && fin.isNone
      trimSpans (writeTokens u.ctx x1 (if quiet then [] else ts) fin (!failed.contains u.ctx) s) u.ctx p

/-! ## Filling the slots (R345, R348, R349) -/

/-- The order of contexts: ascending DEADLINE, then number. -/
def ctxKey (e : Nat × Ctx) : Nat := (e.2.deadline.getD (2 ^ 64)) * 2 ^ 24 + e.1

/-- Insert in ascending order. -/
def insertCtx (e : Nat × Ctx) : List (Nat × Ctx) → List (Nat × Ctx)
  | [] => [e]
  | f :: l => if ctxKey e ≤ ctxKey f then e :: f :: l else f :: insertCtx e l

/-- The contexts that want a slot, in order. A registered prefix whose prefill has ended wants none. -/
def wanting (s : State) : List (Nat × Ctx) :=
  ((liveCtxs s).filter fun e => e.2.open && !e.2.isForecast && (e.2.isPrefix.isNone || decide (e.2.committed < e.2.promptTotal))).foldr insertCtx []

/-- Slots for contexts in order: at most `room`, with `budget` prompt tokens left. -/
def fillSlots : Nat → Nat → List (Nat × Ctx) → List SlotUse
  | 0, _, _ => []
  | _, _, [] => []
  | room + 1, budget, (c, x) :: l =>
    if x.committed < x.promptTotal && x.st != .decode then
      let n := Nat.min (x.promptTotal - x.committed) budget
      if n = 0 then fillSlots (room + 1) budget l else ⟨c, 0, some n⟩ :: fillSlots room (budget - n) l
    else ⟨c, Nat.min x.draft (x.maxNew - x.tokens - 1), none⟩ :: fillSlots room budget l

/-- A context takes the pages of the spans that its slot reaches and that it does not hold (R343). -/
def takeSpans (p : SrvParams) (c last : Nat) (s : State) : State :=
  match s.ctx c with
  | none => s
  | some x =>
    let first := x.committed / p.tpp
    let entries := (List.range (p.pps * (last / p.tpp + 1 - first))).map (· + p.pps * first)
    let missing := entries.filter fun i => x.pages.all (fun e => e.1 != i) && decide (p.pps * (x.shared / p.tpp) ≤ i)
    missing.foldl (fun s i =>
      let (page, s1) := takePage s x.pool
      match s1.ctx c with
      | some y => (tableEntryPut s1 x.pool x.ptPage i page).setCtx c { y with pages := y.pages ++ [(i, page)] }
      | none => s1) s

/-- The 64 bytes of a slot table entry; none: an empty slot. -/
def slotBytes (s : State) (u : Option SlotUse) : List Byte :=
  match u with
  | none => leBytes 4 0xFFFFFFFF ++ List.replicate 60 0
  | some u => match s.ctx u.ctx with
    | none => leBytes 4 0xFFFFFFFF ++ List.replicate 60 0
    | some x =>
      let chunk := u.chunk.getD 0
      leBytes 4 u.ctx ++ leBytes 4 x.committed ++ leBytes 1 u.k ++ leBytes 1 (b2n u.chunk.isSome) ++ leBytes 2 x.pool ++ leBytes 4 x.ptPage
        ++ leBytes 4 (if x.motif = 0 then 0xFFFFFFFF else x.motif % 2 ^ 16) ++ leBytes 4 (if u.chunk.isSome then 0 else x.inToken) ++ leBytes 4 chunk
        ++ leBytes 8 (if u.chunk.isSome then x.promptAddr + 4 * (x.committed - x.shared) else 0) ++ leBytes 4 x.temp ++ leBytes 2 x.topk
        ++ leBytes 2 x.topp ++ leBytes 4 x.strm ++ List.replicate 16 0

/-- A slot's context takes its spans, and its first prefill chunk moves it to PREFILL (R336). -/
def prepareSlot (p : SrvParams) (s : State) (u : SlotUse) : State :=
  match s.ctx u.ctx with
  | none => s
  | some x =>
    let s1 := if u.chunk.isSome ∧ x.st = .queued then s.setCtx u.ctx { x with st := .prefill } else s
    takeSpans p u.ctx (match u.chunk with
      | some n => x.committed + n - 1
      | none => x.committed + u.k) s1

/-- Steps 4 and 5 of R347: fill the slots, write the slot table, launch the step. -/
def startStep (p : SrvParams) (start : Nat) (s : State) : State :=
  let uses := fillSlots p.slots p.prefillTok (wanting s)
  let s1 := uses.foldl (prepareSlot p) s
  let slots := uses.map some ++ List.replicate (p.slots - uses.length) none
  let s2 := ((List.range slots.length).zip slots).foldl (fun s e => hbmPut s (p.slotTable + 64 * e.1) (slotBytes s e.2)) s1
  (segmentCores s2 p).foldl (launchCore start) (s2.modSrv fun r => { r with slots := slots, stepRunning := true })

/-- The records of the step that has drained, with their slots. -/
def stepRecords (s : State) (p : SrvParams) : List (SlotUse × StepRecord) :=
  ((List.range s.srv.slots.length).zip s.srv.slots).filterMap fun (i, u) => u.map fun u => (u, readRecord s p i)

/-- SERVING_STEP (R347): `start` is the start tick S, `failed` the contexts whose tokens the host does not take. -/
def servingStep (start : Nat) (failed : List Nat) (s : State) : State :=
  match s.srv.params with
  | none => s
  | some p =>
    if !stepsRun s || s.flt.stopped || stopReq s || decide (start < s.ptc.toNat + 64) || !((segmentCores s p).all fun e => coreFinished s e.1) then s
    else
      let records := if s.srv.stepRunning then stepRecords s p else []
      if !records.all (fun e => recordOk s p e.1 e.2) then raiseErr s .srv 1
      else
        let s1 := records.foldl (applyRecord p failed) s
        let s2 := s1.srv.taken.foldl applyTaken (s1.modSrv fun r => { r with taken := [], stepRunning := false, slots := [] })
        startStep p start s2

/-! ## Forecasting (R355, R356) -/

/-- The cores of panel p that a model uses, with their charts: CHART counts from the panel's window. -/
def batchCores (s : State) (p : Nat) (m : Model) : List (Nat × Nat) :=
  (List.range m.cores).filterMap fun v => (physOf s (256 * p + v)).map fun k => (k, m.chart + p * 0x2000000000 + m.stride * v)

/-- The model of a context. -/
def modelOf (p : SrvParams) (x : Ctx) : Model := p.models.getD x.model ⟨0, 0, 0, 0, 0, 0, 0⟩

/-- A batch has drained: its outputs go to the host, and the request completes with its last batch. -/
def finishBatch (p : Nat) (outOk : Bool) (pr : SrvParams) (b : Batch) (s : State) : State :=
  let s1 := s.modSrv fun r => { r with batches := FMap.put none r.batches p none, drainOrder := r.drainOrder ++ [(s.wall, p)] }
  match s1.ctx b.ctx with
  | none => s1
  | some x =>
    if !x.open || x.serial != b.serial then s1
    else
      let m := modelOf pr x
      let fn := qpOwner s x.qp
      let data := Mem.bytes s.hbm (p * 0x2000000000 + pr.fcOut) (b.count * m.outBytes)
      if !outOk || !hostReach s fn then endCtx s1 b.ctx 0x16 0
      else
        let s2 := hostPut s1 fn (x.out + m.outBytes * b.first) data
        let x1 : Ctx := { x with doneSeries := x.doneSeries + b.count }
        let s3 := s2.setCtx b.ctx x1
        if x.series ≤ x1.doneSeries then endCtx s3 b.ctx 0 0 else s3

/-- The next request with a batch to give. -/
def nextBatch (s : State) : Option (Nat × Ctx) := minOn? ctxKey ((liveCtxs s).filter fun e => e.2.open && e.2.isForecast && decide (e.2.nextSeries < e.2.series))

/-- A batch starts on panel p, when that is the panel that drained first. -/
def startBatch (p start : Nat) (inOk : Bool) (pr : SrvParams) (s : State) : State :=
  match minOn? (fun e => e.1 * 16 + e.2) s.srv.drainOrder, nextBatch s with
  | some e, some (c, x) =>
    let m := modelOf pr x
    let fn := qpOwner s x.qp
    let n := Nat.min m.maxSeries (x.series - x.nextSeries)
    if e.2 ≠ p ∨ n = 0 then s
    else if !inOk || !hostReach s fn then endCtx s c 0x16 0
    else
      let data := hostGet s fn (x.inAddr + m.inBytes * x.nextSeries) (n * m.inBytes)
      let s1 := hbmPut s (p * 0x2000000000 + pr.fcIn) data
      let s2 := (s1.setCtx c { x with nextSeries := x.nextSeries + n }).modSrv fun r =>
        { r with drainOrder := r.drainOrder.erase e, batches := FMap.put none r.batches p (some ⟨c, x.serial, x.model, x.nextSeries, n⟩) }
      (batchCores s2 p m).foldl (launchCore start) s2
  | _, _ => s

/-- FORECAST_BATCH (R356): the batch on panel p ends once its cores have drained, and the next one starts. -/
def forecastBatch (p start : Nat) (inOk outOk : Bool) (s : State) : State :=
  match s.srv.params with
  | none => s
  | some pr =>
    if s.srv.st != .ready || !pr.forecasting || s.flt.stopped || decide (start < s.ptc.toNat + 64) then s
    else match FMap.look none s.srv.batches p with
      | none => startBatch p start inOk pr s
      | some b =>
        let m := pr.models.getD b.model ⟨0, 0, 0, 0, 0, 0, 0⟩
        if (batchCores s p m).all fun e => coreFinished s e.1 then startBatch p start inOk pr (finishBatch p outOk pr b s) else s

/-- SERVING_STEP. -/
def execServingStep (start : Nat) (failed : List Nat) (s : State) := act s (servingStep start failed)
/-- FORECAST_BATCH. -/
def execForecastBatch (p start : Nat) (inOk outOk : Bool) (s : State) := act s (forecastBatch p start inOk outOk)

end Sys2Proof.Machine
end

