-- ==== Sys2Proof/Machine/RegAccess.lean ====
section
/-! DEFINITION. Register accesses: writes and reads of BAR0, doorbell pages and configuration space by the functions, and of BAR0 by
the harts of the control complexes (R9 to R12, R254 to R257, R361 to R366, R372 to R374, and every block's register table). -/

namespace Sys2Proof.Machine

/-! ## Writes: common parts -/

/-- A register write that a condition gives no effect is counted (R373). -/
def writeUnless (no : Bool) (b : Blk) (off : Nat) (w : Word) (s : State) : State :=
  if no then s.countNoEffect b else s.writeReg b off w

/-- A write of a register of which one RW field [lo + n - 1 : lo] has a reserved encoding that no field table can state: that
field keeps its value and the write is counted (R12, R373). -/
def writeKeeping (bad : Bool) (lo n : Nat) (b : Blk) (off : Nat) (w : Word) (s : State) : State :=
  if bad then (s.writeReg b off (BitVec.ofNat 32 (setBits w.toNat lo n (bits (s.regN b off) lo n)))).countNoEffect b
  else s.writeReg b off w

/-- Effects of a write, each when its bit is 1, in order. -/
def onBits (w : Word) (fs : List (Nat × (State → State))) (s : State) : State :=
  fs.foldl (fun s e => if bitOf w.toNat e.1 then e.2 s else s) s

/-- The fault record that a host's clear of BLK_ERR bit 0 opens for the next fault (R260, R261, R262, R358, R370). -/
def clearRecord (b : Blk) (s : State) : State :=
  match b with
  | .hbm _ _ => s.zeroRegs b [0x60, 0x64, 0x68, 0x6C, 0x70]
  | .sts _ => s.zeroRegs b [0x6C, 0x70, 0x74, 0x78, 0x7C]
  | .mem => s.zeroRegs b [0x50, 0x54]
  | .host => s.zeroRegs b [0x54]
  | .srv => (List.range 64).foldl (fun s v => s.setRegN (.vfn (v + 1)) 0x1007C 0) (s.zeroRegs b [0x7C])
  | _ => s

/-- A write of BLK_ERR (R372). -/
def writeErr (b : Blk) (w : Word) (s : State) : State :=
  let old := s.reg b 0x14
  let s1 := s.writeReg b 0x14 w
  let s2 := if s1.regN b 0x14 = 0 then s1.setRegN b 0x1C 0 else s1
  let s3 := match b with
    | .ni p => { s2 with niOwn := FMap.put 0 s2.niOwn p (FMap.look 0 s2.niOwn p &&& s2.reg b 0x14) }
    | _ => s2
  if bitOf (old &&& w).toNat 0 then clearRecord b s3 else s3

/-- A write of the common header (R372, R373). -/
def writeHeader (b : Blk) (off : Nat) (w : Word) (s : State) : State :=
  match off with
  | 0x0C => if bitOf w.toNat 0 then { s with cnt := s.cnt.filter fun e => !(decide (b.base ≤ e.1) && decide (e.1 < b.base + 3)) } else s
  | 0x14 => writeErr b w s
  | _ => s.writeReg b off w

/-! ## Writes, block by block -/

/-- A stream block (R78 to R85). -/
def writeStr (k : Nat) (b : Blk) (off : Nat) (w : Word) (s : State) : State :=
  if [0x48, 0x60, 0x64, 0x68, 0x6C].contains off then writeUnless ((s.core k).stream.st == .running) b off w s
  else if off = 0xA0 ∧ bitOf w.toNat 0 then strGo (bitOf w.toNat 1) k s
  else s.writeReg b off w

/-- PLAN (R108, R111). -/
def writePlan (off : Nat) (w : Word) (s : State) : State :=
  if off = 0x40 then onBits w [(0, planSnapTake)] s
  else writeUnless (decide (0x100 ≤ off) && jobRunning s) .plan off w s

/-- CLK (R397 to R399, R415). -/
def writeClk (off : Nat) (w : Word) (s : State) : State :=
  match off with
  | 0x40 => planSetChange (w.toNat % 4) s
  | 0x5C =>
    if bitOf w.toNat 0 then timeStep (bitOf w.toNat 1) s
    else if bitOf w.toNat 1 then timeSlew false s
    else s
  | _ => s.writeReg .clk off w

/-- A cast-on node's CFG (R290). -/
def writeNodeCfg (n : Nat) (off : Nat) (w : Word) (s : State) : State :=
  let new := writeFields (castFields off) (s.regN .cast off) w.toNat
  let en := bitOf new 31
  if en && (bitOf new 30 == (bits new 28 2 != 0)) then s.countNoEffect .cast
  else (s.writeReg .cast off w).setNode n { s.node n with st := if en then .idle else .disabled }

/-- CAST (R289, R290). -/
def writeCast (off : Nat) (w : Word) (s : State) : State :=
  if off = 0x40 then onBits w [(1, castRearm), (0, castCtrlArrive)] (s.writeReg .cast off w)
  else if off = 0x68 then onBits w [(16, bindOffStart (w.toNat % 2 ^ 16))] (s.writeReg .cast off w)
  else if 0x100 ≤ off ∧ off < 0x500 then
    let n := (off - 0x100) / 16
    let st := (s.node n).st
    if off % 16 = 12 then s
    else if st != .disabled && st != .idle then s.countNoEffect .cast
    else if off % 16 = 0 then writeNodeCfg n off w s
    else s.writeReg .cast off w
  else s.writeReg .cast off w

/-- FAB (R313, R324). -/
def writeFab (off : Nat) (w : Word) (s : State) : State :=
  if off = 0x48 then writeUnless (anyRunning s) .fab off w s
  else if off = 0xAC then fabTblWrite w s
  else if 0x50 ≤ off ∧ off < 0x90 then
    let x := (off - 0x50) / 16
    if off % 16 = 0 then fabCtxActivate x w s else writeUnless (ctxValid s x) .fab off w s
  else s.writeReg .fab off w

/-- SRV (R358). -/
def writeSrv (off : Nat) (w : Word) (s : State) : State :=
  match off with
  | 0x4C => writeKeeping (s.srv.params.any fun p => decide (p.promptSize / 4 < w.toNat)) 0 32 .srv off w s
  | 0x78 => srvAqSizeWrite 0 w s
  | _ => s.writeReg .srv off w

/-- The VFN block and the SRV view of a virtual function (R366, R382). -/
def writeVfn (v : Nat) (off : Nat) (w : Word) (s : State) : State :=
  match off with
  | 0x40 => onBits w [(0, irqRearm v)] s
  | 0x200C => let s1 := s.writeReg (.vfn v) off w; if bitOf w.toNat 0 then s1 else msixUnmask v s1
  | 0x10078 => srvAqSizeWrite v w s
  | _ => s.writeReg (.vfn v) off w

/-- HOST (R377, R380, R381). -/
def writeHost (off : Nat) (w : Word) (s : State) : State :=
  match off with
  | 0x44 => onBits w [(1, irqRearm 0)] (s.writeReg .host off w)
  | 0x200C => let s1 := s.writeReg .host off w; if bitOf w.toNat 0 then s1 else msixUnmask 0 s1
  | _ => s.writeReg .host off w

/-- BOOT (R454). -/
def writeBoot (off : Nat) (w : Word) (s : State) : State :=
  match off with
  | 0x44 => onBits w [(5, hostload), (4, topoApply), (1, loadBegin), (2, loadDone), (3, bootStart)] s
  | 0x5C => writeUnless (!s.boot.loading) .boot off w s
  | _ => s.writeReg .boot off w

/-- FLT (R484); `hart` says that a hart writes. -/
def writeFlt (hart : Bool) (off : Nat) (w : Word) (s : State) : State :=
  match off with
  | 0x40 =>
    onBits w [(2, hostStop), (1, fltClear), (0, fun s => if hart then fltStop s else s.countNoEffect .flt)] (s.writeReg .flt off w)
  | 0x9C => istWrite s w
  | _ => s.writeReg .flt off w

/-- HBM (R234, R260). -/
def writeHbm (p st : Nat) (off : Nat) (w : Word) (s : State) : State :=
  let b := Blk.hbm p st
  let pt := w.toNat % 2 ^ 16
  match off with
  | 0x40 => hbmModeWrite p st (bitOf w.toNat 0) s
  | 0x44 =>
    if planned s p st then s.countNoEffect b
    else writeKeeping (decide (largestRefPeriod s < pt) || decide (pt < windowLen s + 1024)) 0 16 b off w s
  | 0x48 | 0x4C | 0x50 | 0x54 => writeUnless (planned s p st) b off w s
  | _ => s.writeReg b off w

/-- STS (R261). -/
def writeSts (p : Nat) (off : Nat) (w : Word) (s : State) : State :=
  let b := Blk.sts p
  let busy := (s.stash p).cmd.isSome
  match off with
  | 0x40 =>
    let op := w.toNat % 16
    if busy || (decide (1 ≤ op) && decide (op ≤ 5)) then stsStart op p s else s.countNoEffect b
  | 0x48 | 0x4C | 0x50 | 0x54 | 0x58 => writeUnless busy b off w s
  | _ => s.writeReg b off w

/-- ROW (R272, R288). -/
def writeRow (p : Nat) (off : Nat) (w : Word) (s : State) : State :=
  match off with
  | 0x40 => writeUnless s.jobLive (.row p) off w s
  | 0x44 => writeKeeping (!bitOf w.toNat 31 && decide (63 < w.toNat % 2 ^ 12)) 0 12 (.row p) off w s
  | 0x48 => rowValueWrite p w s
  | _ => s.writeReg (.row p) off w

/-- PLY (R302 to R305, R320, R322). -/
def writePly (l : Nat) (off : Nat) (w : Word) (s : State) : State :=
  match off with
  | 0x40 => onBits w [(1, plyRetrain l), (2, plyRegauge l)] (plyEnWrite l w s)
  | 0x60 | 0x64 | 0x68 | 0x6C => plyLotWrite l ((off - 0x60) / 4) w s
  | _ => s.writeReg (.ply l) off w

/-- ICU_SRCn (R384, R388, R389). A reserved source has no such register. -/
def writeIcuSrc (p n : Nat) (w : Word) (s : State) : State :=
  if !icuUsed n then s.countNoEffect (.icu p)
  else
    let x := s.icu p
    let old := x.src n
    let v := w.toNat
    let reserved := decide (4 < bits v 28 3)
    let sense := if reserved then old.sense else bits v 28 3
    let new : IcuSrc := { old with en := bitOf v 31, sense := sense, prio := bits v 24 4, hart := bits v 22 2
                                   edge := sense == old.sense && (if bitOf v 0 then old.edgeAfter s.wall else old.edge) }
    let s1 := s.setIcu p (x.setSrc n new)
    if reserved then s1.countNoEffect (.icu p) else s1

/-- ICU (R386, R389). -/
def writeIcu (p : Nat) (off : Nat) (w : Word) (s : State) : State :=
  if 0x40 ≤ off ∧ off < 0x80 then (if off % 16 = 4 then icuEoi p ((off - 0x40) / 16) (w.toNat % 512) s else s)
  else if off = 0xC4 then onBits w [(8, icuXpanelGo p (w.toNat % 8))] s
  else if 0x1000 ≤ off ∧ off < 0x1800 then writeIcuSrc p ((off - 0x1000) / 4) w s
  else s.writeReg (.icu p) off w

/-- CC_WDOG: only the harts of the panel write it (R455). -/
def writeCc (p : Nat) (own : Bool) (off : Nat) (w : Word) (s : State) : State :=
  if off = 0x44 then (if own then onBits w [(31, ccWdogKick p)] (ccWdogKick p (s.writeReg (.cc p) off w)) else s.countNoEffect (.cc p))
  else s.writeReg (.cc p) off w

/-- NUM: what a tick's events see of NUM_CTRL is what it held before the tick (R145). -/
def writeNum (p : Nat) (off : Nat) (w : Word) (s : State) : State :=
  let was := FMap.look (s.reg (.num p) 0x40) s.numWas p
  (if off = 0x40 then { s with numWas := FMap.put 0xFFFFFFFF s.numWas p was } else s).writeReg (.num p) off w

/-- A 4-byte write of a block's register by function `fn` (0 = PF, v = VF v, 65 + p = a hart of panel p). -/
def writeWord (fn : Nat) (b : Blk) (off : Nat) (w : Word) (s : State) : State :=
  if !writable s b || (b.fields off).isEmpty then s
  else if off < 0x40 then writeHeader b off w s
  else match b with
    | .str p c => writeStr (coreKey p c) b off w s
    | .plan => writePlan off w s
    | .hold => let s1 := s.writeReg .hold off w; if off = 0x40 then onBits w [(1, debugRelease), (0, debugHold)] s1 else s1
    | .clk => writeClk off w s
    | .gov => if off = 0x40 then pwrLimitWrite w s else s.writeReg b off w
    | .cast => writeCast off w s
    | .fab => writeFab off w s
    | .srv => writeSrv off w s
    | .vfn v => writeVfn v off w s
    | .host => writeHost off w s
    | .boot => writeBoot off w s
    | .flt => writeFlt (decide (65 ≤ fn)) off w s
    | .evr r => let s1 := s.writeReg b off w; if off = 0x40 then onBits w [(0, evrSoft r)] s1 else s1
    | .evrPkg => let s1 := s.writeReg b off w; if off = 0x40 then onBits w [(0, evrSoft 8)] s1 else s1
    | .mgt => let s1 := s.writeReg b off w; if off = 0x40 then onBits w [(31, svnCommit)] s1 else s1
    | .hbm p st => writeHbm p st off w s
    | .sts p => writeSts p off w s
    | .row p => writeRow p off w s
    | .ply l => writePly l off w s
    | .icu p => writeIcu p off w s
    | .cc p => writeCc p (fn == 65 + p) off w s
    | .pwr p => if 0x40 ≤ off ∧ off < 0x70 then pwrDomWrite p ((off - 0x40) / 4) (bitOf w.toNat 31) s else s.writeReg b off w
    | .num p => writeNum p off w s
    | .mem | .pnl _ | .sa _ | .eng _ | .skn _ | .ni _ | .d2d _ | .thm _ => s.writeReg b off w

/-! ## Reads -/

/-- A read of a register with RC fields: it returns the count and clears it (R9). The increments of the same tick are left for the next read
(R11). -/
def readRc (b : Blk) (off : Nat) (s : State) : Nat × State :=
  let at_ := b.base + off
  let e := FMap.look (s.regN b off, 0) s.incNow at_
  (e.1, { s.setRegN b off (Nat.min e.2 0xFFFFFFFF) with incNow := FMap.put (0, 0) s.incNow at_ (0, e.2) })

/-- A read of ICU_CNTk: the counts of four sources, each cleared (R11, R389). -/
def readIcuCnt (p k : Nat) (s : State) : Nat × State :=
  let x := s.icu p
  let ns := [k, k + 1, k + 2, k + 3]
  (leNat (ns.map fun n => BitVec.ofNat 8 ((x.src n).countRead s.wall)),
    s.setIcu p (ns.foldl (fun (x : Icu) n => x.setSrc n ((x.src n).readCount s.wall)) x))

/-- A 4-byte read of a block's register: its value, and the state after its side effects (R9, R385, R389). -/
def readWord (b : Blk) (off : Nat) (s : State) : Nat × State :=
  let plain := if (b.fields off).any (·.acc == .rc) then readRc b off s else (view s b off, s)
  if !writable s b then (view s b off, s)
  else match b with
    | .icu p =>
      if 0x40 ≤ off ∧ off < 0x80 ∧ off % 16 = 0 then
        let s1 := icuClaim p ((off - 0x40) / 16) s
        (s1.reply.value.toNat, s1)
      else if 0x1800 ≤ off ∧ off < 0x1A00 then readIcuCnt p (off - 0x1800) s
      else plain
    | _ => plain

/-! ## Where an address of a function leads -/

/-- What an address names: a register, a byte of a control complex's local SRAM, a doorbell page, configuration space, or nothing. -/
inductive Target where
  | reg (b : Blk) (off : Nat)
  | sram (p off : Nat)
  | doorbell (q off : Nat)
  | config (n : Nat)
  | nothing
deriving DecidableEq, Repr

/-- The place of an address of the model: BAR0 from 0, BAR2 from 0x4000_0000, configuration space from 0x8000_0000
(R254 to R257, R364 to R366). -/
def targetAt (s : State) (fn addr : Nat) : Target :=
  let pf := decide (fn = 0)
  if fn ≠ 0 ∧ fn ≤ 64 ∧ !vfPresent s fn then .nothing
  else if addr < 0x40000000 then
    if pf ∨ 65 ≤ fn then
      let p := (addr - 0x10000000) / 0x02000000
      let w := (addr - 0x10000000) % 0x02000000
      if 0x10000000 ≤ addr ∧ addr < 0x20000000 ∧ 0x01800000 ≤ w ∧ w < 0x01A00000 then .sram p (w - 0x01800000)
      else match blockAt addr with
        | some (b, off) => .reg b off
        | none => .nothing
    else if addr < 0x20000 then .reg (.vfn fn) addr
    else .nothing
  else if 65 ≤ fn then .nothing
  else if addr < 0x80000000 then
    let page := (addr - 0x40000000) / 0x1000
    let off := addr % 0x1000
    if pf then .doorbell page off
    else if page < (vfOf s fn).count ∧ page < 16384 then .doorbell ((vfOf s fn).first + page) off
    else .nothing
  else .config (addr - 0x80000000)

/-- Whether an access reaches the local SRAM of panel p at an offset: a hart's always, a host's in HOST_WAIT on panel 0 (R425). -/
def sramReach (s : State) (fn p off : Nat) : Bool :=
  decide (p < s.fuses.panels) && domOn s p 11
  && (decide (65 ≤ fn) || (s.boot.stage == .hostWait && p == 0 && decide (off < 0x180000)))

/-! ## Accesses -/

/-- A 4-byte write. -/
def writeAt (fn addr : Nat) (w : Word) (s0 : State) : State :=
  let s := dropLatch fn s0
  match targetAt s fn addr with
  | .reg b off => writeWord fn b off w s
  | .sram p off => if sramReach s fn p off then { s with sram := Mem.store s.sram (2 ^ 21 * p + off) (leBytes 4 w.toNat) } else s
  | .doorbell q off => if off = 0 then sqTail q w.toNat s else if off = 4 then cqHead q w.toNat s else s
  | .config n => configWrite fn n w s
  | .nothing => s

/-- A 4-byte read. A read of a _LO half latches the _HI half for the function's next access (R363). -/
def readAt (fn addr : Nat) (s0 : State) : Nat × State :=
  let held := (FMap.look {} s0.fns fn).latch
  let s := dropLatch fn s0
  match targetAt s fn addr with
  | .reg b off =>
    match held with
    | some (a, v) => if a = addr && blkPresent s b then (v.toNat, s) else readLatching b off s
    | none => readLatching b off s
  | .sram p off => (if sramReach s fn p off then Mem.nat s.sram (2 ^ 21 * p + off) 4 else 0, s)
  | .config n => (configRead s fn n, s)
  | .doorbell _ _ | .nothing => (0, s)
where
  /-- The read of a register, with the latch of its _HI half. -/
  readLatching (b : Blk) (off : Nat) (s : State) : Nat × State :=
    let (v, s1) := readWord b off s
    match b.hiOf off with
    | none => (v, s1)
    | some hi =>
      let f := FMap.look {} s1.fns fn
      (v, { s1 with fns := FMap.put {} s1.fns fn { f with latch := some (addr + 4, BitVec.ofNat 32 (view s b hi)) } })

/-- An access that BAR0 and BAR2 accept: 4 or 8 bytes, naturally aligned (R361); configuration space takes aligned dwords. -/
def accessOk (addr size : Nat) : Bool := (size == 4 && addr % 4 == 0) || (size == 8 && addr % 8 == 0 && decide (addr < 0x80000000))

/-- ACCESS_SIZE of the function (R361). -/
def badAccess (fn : Nat) (s : State) : State :=
  if fn = 0 then raiseErr s .host 2 else if fn ≤ 64 then raiseErr s (.vfn fn) 0 else s

/-- REGISTER_WRITE. -/
def registerWrite (fn addr size : Nat) (value : DWord) (poisoned : Bool) (s : State) : State :=
  let v := value.toNat
  if poisoned then raiseErr (dropLatch fn s) .host 1
  else if !accessOk addr size then badAccess fn (dropLatch fn s)
  else
    let s1 := writeAt fn addr (BitVec.ofNat 32 v) s
    if size = 8 then writeAt fn (addr + 4) (BitVec.ofNat 32 (v / 2 ^ 32)) s1 else s1

/-- REGISTER_READ. -/
def registerRead (fn addr size : Nat) (s : State) : State :=
  if !accessOk addr size then { badAccess fn (dropLatch fn s) with reply := {} }
  else
    let (lo, s1) := readAt fn addr s
    if size = 8 then
      let (hi, s2) := readAt fn (addr + 4) s1
      { s2 with reply := { value := BitVec.ofNat 64 (lo + 2 ^ 32 * hi) } }
    else { s1 with reply := { value := BitVec.ofNat 64 lo } }

/-! ## The test port (R489) -/

/-- The levels that boundary scan captures: bit 0 PERST_N, 1 HOST_IRQ_N, 2 FAULT_N, 3 THERMTRIP_N, 4 HOST_BOOT, 5 and 6 MGMT_ADDR, 7
STRAP_TEST, and from bit 8 the signals that no state holds. The order of the cells is the model's own (log entry 152). -/
def scanned (s : State) (inputs : Nat) : Nat :=
  b2n (!s.pins.perst) + b2n (!hostIrqLow s) * 2 + b2n (!faultLow s) * 4 + b2n (!thermtripLow s) * 8 + b2n s.pins.straps.hostBoot * 16
    + s.pins.straps.mgmtAddr % 4 * 32 + b2n s.pins.straps.test * 128 + inputs * 256

/-- Hart h of panel p is halted. -/
def hartHalted (s : State) (p h : Nat) : Bool := decide (h < 4) && FMap.look 0 s.harts (4 * p + h) == 3

/-- A debugger halts a hart that runs, or resumes one that is halted. -/
def hartTo (p h v : Nat) (ok : Nat → Bool) (s : State) : State :=
  if p < s.fuses.panels ∧ h < 4 ∧ domOn s p 11 ∧ ok (FMap.look 0 s.harts (4 * p + h)) then { s with harts := FMap.put 0 s.harts (4 * p + h) v }
  else s

/-- TEST_PORT_ACCESS to a hart's debug module: a halted hart makes the debugger's accesses. -/
def testPortAccess (op : TestOp) (s : State) : State :=
  match op with
  | .sample inputs => { s with reply := { value := BitVec.ofNat 64 (scanned s inputs) } }
  | .drive levels => { s with pins := { s.pins with scan := levels } }
  | .halt p h => hartTo p h 3 (· != 0) s
  | .resume p h => hartTo p h 1 (· == 3) s
  | .read p h addr => if hartHalted s p h then registerRead (65 + p) addr 4 s else s
  | .write p h addr value => if hartHalted s p h then registerWrite (65 + p) addr 4 (value.setWidth 64) false s else s

/-- Boundary scan does not wait for the package: it works whatever the state of PERST_N. -/
def isScan : TestOp → Bool
  | .sample _ | .drive _ => true
  | _ => false

/-- TEST_PORT_ACCESS. -/
def execTestPortAccess (op : TestOp) (s : State) := if isScan op then .next (testPortAccess op s) else act s (testPortAccess op)
/-- REGISTER_WRITE. -/
def execRegisterWrite (fn addr size : Nat) (value : DWord) (poisoned : Bool) (s : State) :=
  act s (registerWrite fn addr size value poisoned)
/-- REGISTER_READ. -/
def execRegisterRead (fn addr size : Nat) (s : State) := act s (registerRead fn addr size)

end Sys2Proof.Machine
end

