-- ==== Sys2Proof/Machine/Skein.lean ====
section
/-! DEFINITION. The skein's own events: ECC write-back, scrubber (R229, R230), and the writes that arm an injection (R175, R259). -/

namespace Sys2Proof.Machine

/-- A core's landing port has written nothing in this tick, and nothing waits that it could write (R228, R229). -/
def landingPortFree (s : State) (k : Nat) : Bool :=
  let c := s.core k
  c.landedAt != s.wall + 1
    && !(ptcRuns s && (!c.collBuf.isEmpty || c.landings.any fun l => decide (l.ptc ≤ s.ptc.toNat)))
    && !(c.ret.any fun b => !b.fifo && decide (b.ready ≤ s.wall))

/-- SKN_WRITEBACK (R229): the oldest queued word of a bank is written back in a tick that no landing takes. -/
def sknWriteback (bank k : Nat) (s : State) : State :=
  let c := s.core k
  if !landingPortFree s k then s
  else match c.wb.find? fun w => w.1 / 64 % 32 == bank with
    | none => s
    | some w => skWrite (s.setCore k { c with landedAt := s.wall + 1 }) k w.1 w.2

/-! ## The scrubber (R230) -/

/-- Plan clock periods between two beats that a panel's scrubbers read (R230, R259). -/
def scrubInterval (s : State) (p : Nat) : Nat := 2 ^ (6 + s.regN (.skn p) 0x40 % 8)

/-- Upsets of stored bits in a core's skein: from then on every read meets them (R229, log entry 140). -/
def upsets (k : Nat) (found : List WordError) (s : State) : State :=
  found.foldl (fun s e =>
    if e.addr < 49152 * 64 then { s with skErr := FMap.put 0 s.skErr (skAddr k e.addr / 8) (if e.double then 2 else 1) } else s) s

/-- A landing has written the bank of a beat in this tick: the scrub waits (R230). -/
def landsInBank (s : State) (k beat : Nat) : Bool :=
  s.landed.any fun e => decide (skAddr k 0 ≤ e.1) && decide (e.1 < skAddr k (49152 * 64)) && bankOf (e.1 - skAddr k 0) == bankOf (64 * beat)

/-- The next beat of a panel's scrubbers is due: the panel goes on to it. All its cores scrub in step (R259). -/
def scrubRound (p : Nat) (s : State) : State :=
  let due := FMap.look 0 s.scrubFrom p + scrubInterval s p
  if s.wall < due then s
  else { s with scrubPos := FMap.put 0 s.scrubPos p (FMap.look 0 s.scrubPos p + 1), scrubFrom := FMap.put 0 s.scrubFrom p s.wall }

/-- Every core of a panel whose domain is ON has scrubbed the beat of this round. -/
def roundDone (s : State) (p : Nat) : Bool :=
  ((List.range 288).filter fun c => slotEnabled s p c && domOn s p (c / 36)).all fun c =>
    (s.core (coreKey p c)).scrubbed == FMap.look 0 s.scrubPos p + 1

/-- SKN_SCRUB (R229, R230): a core reads the beat of its panel's round, once, held or not; SKN_SCRUB_PASS counts the passes that the panel
has completed. -/
def sknScrub (found : List WordError) (k : Nat) (s0 : State) : State :=
  let p := k / 288
  let s := upsets k found s0
  if !domOn s p (k % 288 / 36) then s
  else
    let done := (s.core k).scrubbed == FMap.look 0 s.scrubPos p + 1
    let s1 := if done then scrubRound p s else s
    let n := FMap.look 0 s1.scrubPos p
    let beat := n % 49152
    if (s1.core k).scrubbed = n + 1 ∨ landsInBank s1 k beat then s1
    else
      let (_, s2) := readWords k 0xF 8 (64 * beat) (portBytes s1 k (64 * beat) 64) ([], s1)
      let s3 := s2.modCore k fun c => { c with scrubbed := n + 1 }
      if beat = 49151 ∧ roundDone s3 p then s3.setRegN (.skn p) 0x58 ((n + 1) / 49152 % 2 ^ 32) else s3

/-- SKN_WRITEBACK. -/
def execSknWriteback (c : CoreId) (bank : Nat) (s : State) := act s fun s => onCore s c (sknWriteback bank)
/-- SKN_SCRUB. -/
def execSknScrub (c : CoreId) (found : List WordError) (s : State) := act s fun s => onCore s c (sknScrub found)
/-- SKN_INJECT: a write of the register (R259). -/
def execSknInject (p : Nat) (w : Word) (s : State) := act s fun s => onBlock s (.skn p) fun s => s.writeReg (.skn p) 0x5C w
/-- SA_INJECT: a write of the register (R175). -/
def execSaInject (p : Nat) (w : Word) (s : State) := act s fun s => onBlock s (.sa p) fun s => s.writeReg (.sa p) 0x54 w

end Sys2Proof.Machine
end

