-- ==== Sys2Proof/Machine/Stitch.lean ====
section
/-! DEFINITION. The stitch array: plane sets, accumulator bank, folds, drain, residue and parity faults (R148 to R175). -/

namespace Sys2Proof.Machine

/-- An error of the given kind is armed for a core in SA_INJECT (R175). -/
def saArmed (s : State) (k kind : Nat) : Bool :=
  let w := s.regN (.sa (k / 288)) 0x54
  bitOf w 31 && bits w 9 2 == kind && w % 512 == k % 288

/-- The NK8 clears ARM when it injects. -/
def saDisarm (s : State) (k : Nat) : State :=
  let b := Blk.sa (k / 288)
  s.setRegN b 0x54 (s.regN b 0x54 % 2 ^ 31)

/-! ## Plane sets (R152, R153, R173) -/

/-- The stored row `x` of a load's plane `i`, counted over all rows that the fill port has written of it (R153). -/
def loadRow (o : Op) (i x : Nat) : List Byte :=
  ((FMap.look zeroBeat o.seen (slotOf i x)).drop ((o.eff.getD 0 0 + 16 * x) % 64)).take 16

/-- The parity of the four quarters of 32 columns of a stored row (R173). -/
def rowParity (row : List Byte) : BitVec 4 :=
  BitVec.ofNat 4 ((List.range 4).foldl (fun v c => v + (setBitsOf 32 (leNat ((row.drop (4 * c)).take 4))).length % 2 * 2 ^ c) 0)

/-- The plane set that a LOAD_PLANES makes of the rows and scales that have reached it. -/
def loadedSet (o : Op) : PlaneSet :=
  let d := o.desc
  let f := fld d 0
  let rows := if f.fmt = 0 then [0, 1].flatMap fun i => (List.range 128).map (loadRow o i) else (List.range (loadTicks d)).map (loadRow o 0)
  { fmt := f.fmt, g := bits (dw d 8) 8 3, group := bits (dw d 8) 4 2
    planes := rows.flatten
    scales := (List.range 128).flatMap fun x => ((FMap.look zeroBeat o.seen (slotOf 2 x)).drop (4 * (x % 16))).take 4
    parity := rows.map rowParity }

/-- A core with plane set SET replaced. -/
def Core.putSet (c : Core) (one : Bool) (x : PlaneSet) : Core := if one then { c with set1 := some x } else { c with set0 := some x }

/-- The rows and quarters of plane i of a set whose parity differs from what the fill port has written (R173). -/
def parityBad (set : PlaneSet) (i : Nat) : List (Nat × Nat) :=
  (List.range 128).flatMap fun k =>
    let x := rowParity ((set.planes.drop (2048 * i + 16 * k)).take 16) ^^^ set.parity.getD (128 * i + k) 0
    (setBitsOf 4 x.toNat).map fun c => (k, c)

/-! ## The bank while a MULTIPLY runs -/

/-- A fold: its tick after the issue, its accumulator, and the two residues that are compared (R172). -/
structure FoldAt where
  tick : Nat
  slot : Nat
  block : Nat
  col : Nat
  got : Nat
  rho : Nat
deriving DecidableEq, Repr

/-- The accumulator bank and its scale, with the events and the folds so far, latest first. -/
structure BankRun where
  accs : Array Acc
  ls : Array Int
  q : Int
  evs : List (Nat × Ev) := []
  folds : List FoldAt := []

/-- The bank as arrays. -/
def Bank.run (b : Bank) (q : Int) : BankRun :=
  { accs := b.accs.foldl (fun a e => a.setIfInBounds e.1 e.2) (Array.replicate 8192 {})
    ls := b.ls.foldl (fun a e => a.setIfInBounds e.1 e.2) (Array.replicate 2048 0)
    q := q }

/-- An array as a canonical map. -/
def toMap {α : Type} [DecidableEq α] (d : α) (a : Array α) : FMap α :=
  ((List.range a.size).zip a.toList).filter fun e => e.2 ≠ d

/-- A fold in tick `t` after the issue (R157, R172): the accumulator goes into L, rounded to nearest even, saturating. -/
def BankRun.fold (r : BankRun) (t slot b n : Nat) : BankRun :=
  let i := 512 * slot + 128 * b + n
  let a := r.accs.getD i {}
  let v := roundInt a.acc ((a.x : Int) - 254 - r.q) 0 0
  let (l, sat) := clamp128 (r.ls.getD (128 * slot + n) 0 + v)
  { r with
    accs := r.accs.setIfInBounds i { a with acc := 0, rho := 0 }
    ls := r.ls.setIfInBounds (128 * slot + n) l
    evs := numEv t 1 (b2n sat) ++ r.evs
    folds := ⟨t, slot, b, n, (a.acc % 7).toNat, a.rho⟩ :: r.folds }

/-- The weight that the planes of a group give row k, column n (R149): the sign plane is subtracted; a trit for T1. -/
def groupWeight (set : PlaneSet) (planes : Array Byte) (k n : Nat) : Int × Bool :=
  let bit (j : Nat) : Nat := (planes.getD (2048 * j + 16 * k + n / 8) 0).toNat / 2 ^ (n % 8) % 2
  if set.fmt = 0 then
    (match bit 0, bit 1 with
      | 0, 0 => (0, false)
      | 1, 0 => (1, false)
      | 0, _ => (0, true)
      | _, _ => (-1, false))
  else
    let p := planesOf set.fmt set.g
    ((List.range (groupPlanes set.fmt set.g set.group)).foldl (fun v i =>
      let j := 8 * set.group + i
      if j = p - 1 then v - bit i * 2 ^ j else v + bit i * 2 ^ j) (0 : Int), false)

/-- The passes of one vector, block and column (R149, R156, R172): the exponent check in tick t, then the sum of the 32 rows. -/
def BankRun.block (r : BankRun) (t slot b n xw xa : Nat) (dot : Int) : BankRun :=
  let i := 512 * slot + 128 * b + n
  if xw = 0xFF ∨ xa = 0xFF then { r with evs := (t, .num 2 1) :: r.evs }
  else
    let a := r.accs.getD i {}
    let r1 := if a.acc ≠ 0 ∧ xw + xa ≠ a.x then r.fold t slot b n else r
    let a1 := r1.accs.getD i {}
    { r1 with accs := r1.accs.setIfInBounds i ⟨a1.acc + dot, xw + xa, ((a1.rho + dot) % 7).toNat⟩ }

/-- Every slot, column and block in the order of R175. -/
def bankOrder : List (Nat × Nat × Nat) :=
  (List.range 8192).map fun i => (i / 512, i % 4, i % 512 / 4)

/-- All N passes of a MULTIPLY, then the folds of accumulators of magnitude 2^60 or more (R157), in the ticks of R165. The T1 code 10
is read in the first pass. -/
def BankRun.allPasses (r : BankRun) (set : PlaneSet) (o : Op) : BankRun :=
  let dc := digitCount (fld o.desc 0).fmt
  let np := passes o.desc
  let planes := set.planes.toArray
  let scales := set.scales.toArray
  let act := (o.bytes 0 (fld o.desc 0).extent).toArray
  let ws : Array (Int × Bool) := ((List.range 16384).map fun i => groupWeight set planes (i / 128) (i % 128)).toArray
  let as : Array Int := ((List.range 2048).map fun i => signed (8 * dc) (actBits act dc (i / 128) (i % 128))).toArray
  let t1 := (ws.toList.filter (·.2)).length
  let r1 := bankOrder.foldl (fun r (slot, b, n) =>
    let dot := (List.range 32).foldl (fun v i =>
      let k := 32 * b + i
      v + (ws.getD (128 * k + n) (0, false)).1 * as.getD (128 * slot + k) 0) (0 : Int)
    let xa := ((FMap.look zeroBeat o.seen (slotOf 2 slot)).getD (4 * slot + b) 0).toNat
    r.block (4 + slot * (np / 16)) slot b n (scales.getD (128 * b + n) 0).toNat xa dot) r
  let r2 := bankOrder.foldl (fun r (slot, b, n) =>
    if 2 ^ 60 ≤ (r.accs.getD (512 * slot + 128 * b + n) {}).acc.natAbs then r.fold (np + 3) slot b n else r) r1
  { r2 with evs := numEv 2 3 t1 ++ r2.evs }

/-- The drain capture: every accumulator folds, in the tick of the last update (R157, R158). -/
def BankRun.capture (r : BankRun) (np : Nat) : BankRun := bankOrder.foldl (fun r (slot, b, n) => r.fold (np + 3) slot b n) r

/-- The bank through a MULTIPLY, from the plane set and the bank that it started with and the digits that it has read (R155 to R158,
R172). -/
def saRun (o : Op) : BankRun :=
  let r := o.bank.run (lsqOf o.desc)
  match o.set with
  | none => r
  | some set =>
    let r1 := r.allPasses set o
    if bitOf (dw o.desc 12) 2 then r1.capture (passes o.desc) else r1

/-- The bank at a MULTIPLY's bank actions (R155). -/
def startBank (c : Core) (d : Desc) : Bank := if bitOf (dw d 12) 1 then { isOpen := true, q := lsqOf d } else c.bank

/-! ## The drain (R158, R171) -/

/-- The tick after the issue in which the drain writes element i of its output (R159, R165). -/
def drainTick (d : Desc) (i : Nat) : Nat :=
  let w := fmtBits (fld d 1).fmt
  let r := i * w / slotBits d
  passes d + 8 + drainW (fld d 1).fmt (bits (dw d 12) 20 2) * r + ((i * w + w - 1) / 512 - r * slotBits d / 512) / 8

/-- An exact LS128 sum, saturating, with its event (R132, R134). -/
def addLs (v c : Int) (t : Nat) : Nat × List (Nat × Ev) := let (r, sat) := clamp128 (v + c); (unsigned 128 r, numEv t 1 (b2n sat))

/-- The LS128 results for captured values `vs` over the output's old elements `old`, with ACC and CPLX. -/
def drainLs (tk : Nat → Nat) (acc : Bool) (cplx : Nat) (old : Array Nat) : Nat → List Int → List Nat × List (Nat × Ev)
  | _, [] => ([], [])
  | i, v :: vs =>
    let (rest, ev) := drainLs tk acc cplx old (i + 1) vs
    let c (j : Nat) : Int := signed 128 (old.getD j 0)
    let keep (j : Nat) : Nat := old.getD j 0
    match cplx with
    | 0 => let (x, e) := addLs v (if acc then c i else 0) (tk i); (x :: rest, e ++ ev)
    | 1 =>
      let (x, e) := addLs v (if acc then c (2 * i) else 0) (tk (2 * i))
      let (y, e2) := addLs v (if acc then c (2 * i + 1) else 0) (tk (2 * i + 1))
      (x :: y :: rest, e ++ e2 ++ ev)
    | 2 => let (y, e) := addLs v (c (2 * i + 1)) (tk (2 * i + 1)); (keep (2 * i) :: y :: rest, e ++ ev)
    | _ => let (x, e) := addLs (-v) (c (2 * i)) (tk (2 * i)); (x :: keep (2 * i + 1) :: rest, e ++ ev)

/-- The output of a MULTIPLY from its captured values, without an output nothing (R158, R171). -/
def drainOut (s : State) (o : Op) (q : Int) (vs : List Int) : Result :=
  let d := o.desc
  let w := dw d 12
  let f := fld d 1
  let (els, ev) := if f.fmt = 0xF then drainLs (drainTick d) (bitOf w 3) (bits w 20 2) (o.els 1).toArray 0 vs
    else convertAll s o f.fmt (fun _ => 0) (drainTick d) 0 (vs.map fun v => (XVal.ofDyadic v q, false))
  { out := fieldBytes d 1 els, evs := ev }

/-- A MULTIPLY's output and numeric events. -/
def saResult (s : State) (o : Op) : Result :=
  if dOpc o.desc = 1 then {}
  else
    let r := saRun o
    let out := if bitOf (dw o.desc 12) 2 then drainOut s o r.q r.ls.toList else {}
    { out with evs := r.evs.reverse ++ out.evs }

/-- The residue faults of the folds of tick x (R172): an armed injection acts on the first (R175). -/
def foldFaults (k : Nat) (o : Op) (x : Nat) (s : State) : State :=
  ((saRun o).folds.reverse.filter fun f => f.tick == x).foldl (fun s f =>
    let hit := saArmed s k 0
    let s1 := if hit then saDisarm s k else s
    if f.got = (if hit then (f.rho + 1) % 7 else f.rho) then s1
    else saFault s1 k 1 (b2n (bitOf (dw o.desc 12) 0)) f.slot f.block f.col) s

/-- The parity check of the pass of tick x (R150, R173, R175): row k is INDEX, the quarter is BLOCK. -/
def parityFaults (k : Nat) (o : Op) (x : Nat) (s : State) : State :=
  match o.set with
  | none => s
  | some set =>
    let planes := if set.fmt = 0 then [0, 1] else [(x - 2) % groupPlanes set.fmt set.g set.group]
    let hit := saArmed s k 1
    let bad := planes.flatMap (parityBad set) ++ (if hit then [(0, 0)] else [])
    bad.foldl (fun s e => saFault s k 3 (b2n (bitOf (dw o.desc 12) 0)) 0 e.2 e.1) (if hit then saDisarm s k else s)

/-- What a stitch array operation does in its tick x beside its accesses and numeric events (R153, R155, R165): a LOAD_PLANES brings its
set up to date; a MULTIPLY takes its plane set with its first pass and the bank at t + 4, and leaves the bank at the end of t + N + 3. -/
def saTick (k : Nat) (o : Op) (x : Nat) (s : State) : State × Op :=
  let d := o.desc
  let w := dw d 12
  if dOpc d = 1 then (if x < loadTicks d then s.modCore k fun c => c.putSet (bitOf (dw d 8) 0) (loadedSet o) else s, o)
  else
    let n := passes d
    let c := s.core k
    let o1 := if x = 2 then { o with set := if bitOf w 0 then c.set1 else c.set0 } else if x = 4 then { o with bank := startBank c d } else o
    let s1 := if 2 ≤ x ∧ x < n + 2 then parityFaults k o1 x s else s
    let s2 := if 4 ≤ x ∧ x ≤ n + 3 then foldFaults k o1 x s1 else s1
    if x ≠ n + 3 then (s2, o1)
    else
      let r := saRun o1
      (s2.modCore k fun c => { c with
        bank := { c.bank with accs := toMap {} r.accs, ls := toMap 0 r.ls }
        drainBuf := if bitOf w 2 then toMap 0 r.ls else c.drainBuf }, o1)

/-- LOAD_PLANES (R152, R153): its set takes its tag. -/
def saLoad (k : Nat) (q : Checked) (s : State) : State :=
  (startFixed k q s).modCore k fun c => c.putSet (bitOf (dw q.desc 8) 0) (loadedSet (mkOp s k q (.fixed 0) 0))

/-- MULTIPLY (R155): what the stream's later checks find, the bank OPEN at its scale, or CLOSED by a drain. -/
def saMultiply (k : Nat) (q : Checked) (s : State) : State :=
  let w := dw q.desc 12
  (startFixed k q s).modCore k fun c => { c with
    bank := { c.bank with isOpen := !bitOf w 2, q := if bitOf w 1 then lsqOf q.desc else c.bank.q } }

/-- LOAD_PLANES. -/
def execLoadPlanes (c : CoreId) (s : State) := act s fun s => onCore s c (issue 1 [1] saLoad)
/-- MULTIPLY. -/
def execMultiply (c : CoreId) (s : State) := act s fun s => onCore s c (issue 1 [2] saMultiply)

end Sys2Proof.Machine
end

