-- ==== Sys2Proof/Machine/Dispatch.lean ====
section
/-! DEFINITION. One arm for each command: its meaning. -/

namespace Sys2Proof.Machine

def exec (i : Instr) (s : State) : Host.Outcome State Fault Refusal :=
  match i with
  | .perstNDeassert straps => Sys2Proof.Machine.execPerstNDeassert straps s
  | .perstNAssert => Sys2Proof.Machine.execPerstNAssert s
  | .bootRom => Sys2Proof.Machine.execBootRom s
  | .hostload => Sys2Proof.Machine.execHostload s
  | .fwBringup r => Sys2Proof.Machine.execFwBringup r s
  | .topoApply => Sys2Proof.Machine.execTopoApply s
  | .loadBegin => Sys2Proof.Machine.execLoadBegin s
  | .loadDone => Sys2Proof.Machine.execLoadDone s
  | .bootStart => Sys2Proof.Machine.execBootStart s
  | .strGo c timed => Sys2Proof.Machine.execStrGo c timed s
  | .segmentStart c => Sys2Proof.Machine.execSegmentStart c s
  | .issueCheck c => Sys2Proof.Machine.execIssueCheck c s
  | .holdFreeze => Sys2Proof.Machine.execHoldFreeze s
  | .lateItemArrive n => Sys2Proof.Machine.execLateItemArrive n s
  | .holdPeriodicRefresh => Sys2Proof.Machine.execHoldPeriodicRefresh s
  | .holdRefresh => Sys2Proof.Machine.execHoldRefresh s
  | .resumeBroadcast => Sys2Proof.Machine.execResumeBroadcast s
  | .holdResume => Sys2Proof.Machine.execHoldResume s
  | .holdWatchdogExpire => Sys2Proof.Machine.execHoldWatchdogExpire s
  | .debugHold => Sys2Proof.Machine.execDebugHold s
  | .debugRelease => Sys2Proof.Machine.execDebugRelease s
  | .planSnapTake => Sys2Proof.Machine.execPlanSnapTake s
  | .nop c => Sys2Proof.Machine.execNop c s
  | .repeat_ c => Sys2Proof.Machine.execRepeat c s
  | .chain c => Sys2Proof.Machine.execChain c s
  | .end_ c => Sys2Proof.Machine.execEnd c s
  | .wait c => Sys2Proof.Machine.execWait c s
  | .signal c => Sys2Proof.Machine.execSignal c s
  | .mark c => Sys2Proof.Machine.execMark c s
  | .break_ c => Sys2Proof.Machine.execBreak c s
  | .region c => Sys2Proof.Machine.execRegion c s
  | .copy c => Sys2Proof.Machine.execCopy c s
  | .pagedRd c => Sys2Proof.Machine.execPagedRd c s
  | .pagedWr c => Sys2Proof.Machine.execPagedWr c s
  | .feed c => Sys2Proof.Machine.execFeed c s
  | .inputDigestUpdate c => Sys2Proof.Machine.execInputDigestUpdate c s
  | .hostWindowGrant => Sys2Proof.Machine.execHostWindowGrant s
  | .hostRequestFail c op first count kind => Sys2Proof.Machine.execHostRequestFail c op first count kind s
  | .loadPlanes c => Sys2Proof.Machine.execLoadPlanes c s
  | .multiply c => Sys2Proof.Machine.execMultiply c s
  | .add c => Sys2Proof.Machine.execAdd c s
  | .sub c => Sys2Proof.Machine.execSub c s
  | .mul c => Sys2Proof.Machine.execMul c s
  | .fma c => Sys2Proof.Machine.execFma c s
  | .min c => Sys2Proof.Machine.execMin c s
  | .max c => Sys2Proof.Machine.execMax c s
  | .adds c => Sys2Proof.Machine.execAdds c s
  | .subs c => Sys2Proof.Machine.execSubs c s
  | .and c => Sys2Proof.Machine.execAnd c s
  | .or c => Sys2Proof.Machine.execOr c s
  | .xor c => Sys2Proof.Machine.execXor c s
  | .shl c => Sys2Proof.Machine.execShl c s
  | .sra c => Sys2Proof.Machine.execSra c s
  | .rcp c => Sys2Proof.Machine.execRcp c s
  | .sqrt c => Sys2Proof.Machine.execSqrt c s
  | .rsqrt c => Sys2Proof.Machine.execRsqrt c s
  | .exp2 c => Sys2Proof.Machine.execExp2 c s
  | .log2 c => Sys2Proof.Machine.execLog2 c s
  | .exp c => Sys2Proof.Machine.execExp c s
  | .tanh c => Sys2Proof.Machine.execTanh c s
  | .sigmoid c => Sys2Proof.Machine.execSigmoid c s
  | .cvt c => Sys2Proof.Machine.execCvt c s
  | .rsum c => Sys2Proof.Machine.execRsum c s
  | .rmax c => Sys2Proof.Machine.execRmax c s
  | .transpose c => Sys2Proof.Machine.execTranspose c s
  | .blockperm c => Sys2Proof.Machine.execBlockperm c s
  | .reshape c => Sys2Proof.Machine.execReshape c s
  | .packW c => Sys2Proof.Machine.execPackW c s
  | .packA c => Sys2Proof.Machine.execPackA c s
  | .unpack c => Sys2Proof.Machine.execUnpack c s
  | .gather c => Sys2Proof.Machine.execGather c s
  | .scatter c => Sys2Proof.Machine.execScatter c s
  | .mask c => Sys2Proof.Machine.execMask c s
  | .clAdd c => Sys2Proof.Machine.execClAdd c s
  | .addSend c => Sys2Proof.Machine.execAddSend c s
  | .argmax c => Sys2Proof.Machine.execArgmax c s
  | .topk c => Sys2Proof.Machine.execTopk c s
  | .sort c => Sys2Proof.Machine.execSort c s
  | .sample c => Sys2Proof.Machine.execSample c s
  | .expand c => Sys2Proof.Machine.execExpand c s
  | .descriptorComplete c op => Sys2Proof.Machine.execDescriptorComplete c op s
  | .streamDrained c => Sys2Proof.Machine.execStreamDrained c s
  | .landingPortWrite c => Sys2Proof.Machine.execLandingPortWrite c s
  | .sknWriteback c bank => Sys2Proof.Machine.execSknWriteback c bank s
  | .sknScrub c found => Sys2Proof.Machine.execSknScrub c found s
  | .sknInject p w => Sys2Proof.Machine.execSknInject p w s
  | .saInject p w => Sys2Proof.Machine.execSaInject p w s
  | .hbmGranuleStart p st pc found => Sys2Proof.Machine.execHbmGranuleStart p st pc found s
  | .fetchGranuleRequest c => Sys2Proof.Machine.execFetchGranuleRequest c s
  | .hbmRefreshWindow p st => Sys2Proof.Machine.execHbmRefreshWindow p st s
  | .hbmScrubSlot p st found => Sys2Proof.Machine.execHbmScrubSlot p st found s
  | .hbmFreeRefresh p st => Sys2Proof.Machine.execHbmFreeRefresh p st s
  | .hbmPatrolScrub p st pc found => Sys2Proof.Machine.execHbmPatrolScrub p st pc found s
  | .hbmModeWrite p st planned => Sys2Proof.Machine.execHbmModeWrite p st planned s
  | .hbmInject p st w => Sys2Proof.Machine.execHbmInject p st w s
  | .bar4Access off a => Sys2Proof.Machine.execBar4Access off a s
  | .stashPageDecoded p req recovered uncorr => Sys2Proof.Machine.execStashPageDecoded p req recovered uncorr s
  | .stashPageDeliver p => Sys2Proof.Machine.execStashPageDeliver p s
  | .stsRead p => Sys2Proof.Machine.execStsRead p s
  | .stsProgram p => Sys2Proof.Machine.execStsProgram p s
  | .stsErase p => Sys2Proof.Machine.execStsErase p s
  | .stsVerify p => Sys2Proof.Machine.execStsVerify p s
  | .stsBbRead p => Sys2Proof.Machine.execStsBbRead p s
  | .stsCommandDone p m found => Sys2Proof.Machine.execStsCommandDone p m found s
  | .stashBlockScrub p block weak uncorrPage => Sys2Proof.Machine.execStashBlockScrub p block weak uncorrPage s
  | .blackBoxCopy fail0 fail1 => Sys2Proof.Machine.execBlackBoxCopy fail0 fail1 s
  | .rowValueWrite p w => Sys2Proof.Machine.execRowValueWrite p w s
  | .castCtrlArrive => Sys2Proof.Machine.execCastCtrlArrive s
  | .castArrive src lot node slot => Sys2Proof.Machine.execCastArrive src lot node slot s
  | .castRelease src lot node remaining base replayed => Sys2Proof.Machine.execCastRelease src lot node remaining base replayed s
  | .localRelease => Sys2Proof.Machine.execLocalRelease s
  | .castonNodeTimeout n => Sys2Proof.Machine.execCastonNodeTimeout n s
  | .castAbort src lot node => Sys2Proof.Machine.execCastAbort src lot node s
  | .notice src lot b => Sys2Proof.Machine.execNotice src lot b s
  | .castRearm => Sys2Proof.Machine.execCastRearm s
  | .bindOffStart lot => Sys2Proof.Machine.execBindOffStart lot s
  | .bindOffComplete => Sys2Proof.Machine.execBindOffComplete s
  | .plyEnWrite l w => Sys2Proof.Machine.execPlyEnWrite l w s
  | .trainingDone l => Sys2Proof.Machine.execTrainingDone l s
  | .trainingTimeout l => Sys2Proof.Machine.execTrainingTimeout l s
  | .identExchange l peer peerMatches => Sys2Proof.Machine.execIdentExchange l peer peerMatches s
  | .gaugingDone l gauge => Sys2Proof.Machine.execGaugingDone l gauge s
  | .laneLockLost l => Sys2Proof.Machine.execLaneLockLost l s
  | .frameReceive l bytes fec => Sys2Proof.Machine.execFrameReceive l bytes fec s
  | .frameSlot l => Sys2Proof.Machine.execFrameSlot l s
  | .ackTimerExpire l cls => Sys2Proof.Machine.execAckTimerExpire l cls s
  | .graceExpire l => Sys2Proof.Machine.execGraceExpire l s
  | .plyRetrain l => Sys2Proof.Machine.execPlyRetrain l s
  | .plyRegauge l => Sys2Proof.Machine.execPlyRegauge l s
  | .plyLotWrite l e w => Sys2Proof.Machine.execPlyLotWrite l e w s
  | .fabCtxActivate x w => Sys2Proof.Machine.execFabCtxActivate x w s
  | .fabTblWrite w => Sys2Proof.Machine.execFabTblWrite w s
  | .injectionGrant c => Sys2Proof.Machine.execInjectionGrant c s
  | .dataPacket l => Sys2Proof.Machine.execDataPacket l s
  | .fwMsg l vl => Sys2Proof.Machine.execFwMsg l vl s
  | .sqTail q v => Sys2Proof.Machine.execSqTail q v s
  | .cqHead q v => Sys2Proof.Machine.execCqHead q v s
  | .generate q ringOk bufOk => Sys2Proof.Machine.execGenerate q ringOk bufOk s
  | .cancel q ringOk => Sys2Proof.Machine.execCancel q ringOk s
  | .ripBack q ringOk => Sys2Proof.Machine.execRipBack q ringOk s
  | .forecast q ringOk => Sys2Proof.Machine.execForecast q ringOk s
  | .createQp q ringOk => Sys2Proof.Machine.execCreateQp q ringOk s
  | .deleteQp q ringOk => Sys2Proof.Machine.execDeleteQp q ringOk s
  | .registerPrefix q ringOk bufOk => Sys2Proof.Machine.execRegisterPrefix q ringOk bufOk s
  | .releasePrefix q ringOk => Sys2Proof.Machine.execReleasePrefix q ringOk s
  | .registerMotif q ringOk => Sys2Proof.Machine.execRegisterMotif q ringOk s
  | .releaseMotif q ringOk => Sys2Proof.Machine.execReleaseMotif q ringOk s
  | .assignQp q ringOk => Sys2Proof.Machine.execAssignQp q ringOk s
  | .prefixPrefillDone slot => Sys2Proof.Machine.execPrefixPrefillDone slot s
  | .motifReleaseDone slot => Sys2Proof.Machine.execMotifReleaseDone slot s
  | .servingStep start failed => Sys2Proof.Machine.execServingStep start failed s
  | .forecastBatch p start inOk outOk => Sys2Proof.Machine.execForecastBatch p start inOk outOk s
  | .completionPost q ringOk => Sys2Proof.Machine.execCompletionPost q ringOk s
  | .srvAqSizeWrite vf w => Sys2Proof.Machine.execSrvAqSizeWrite vf w s
  | .flrVf vf => Sys2Proof.Machine.execFlrVf vf s
  | .pfReset k => Sys2Proof.Machine.execPfReset k s
  | .linkChange speed width flit => Sys2Proof.Machine.execLinkChange speed width flit s
  | .hostIrqRearm => Sys2Proof.Machine.execHostIrqRearm s
  | .vfIrqRearm vf => Sys2Proof.Machine.execVfIrqRearm vf s
  | .msixUnmask fn => Sys2Proof.Machine.execMsixUnmask fn s
  | .icuSourceEvent p n e => Sys2Proof.Machine.execIcuSourceEvent p n e s
  | .icuClaim p h => Sys2Proof.Machine.execIcuClaim p h s
  | .icuEoi p h src => Sys2Proof.Machine.execIcuEoi p h src s
  | .icuHoldoffExpire p g => Sys2Proof.Machine.execIcuHoldoffExpire p g s
  | .icuXpanelGo p target => Sys2Proof.Machine.execIcuXpanelGo p target s
  | .icuPendingClear p n => Sys2Proof.Machine.execIcuPendingClear p n s
  | .sysrefLost => Sys2Proof.Machine.execSysrefLost s
  | .holdoverEnd => Sys2Proof.Machine.execHoldoverEnd s
  | .referenceRestored r => Sys2Proof.Machine.execReferenceRestored r s
  | .refclkLost => Sys2Proof.Machine.execRefclkLost s
  | .pllUnlock => Sys2Proof.Machine.execPllUnlock s
  | .d2dCrcFail p j => Sys2Proof.Machine.execD2dCrcFail p j s
  | .d2dRetrySuccess p j => Sys2Proof.Machine.execD2dRetrySuccess p j s
  | .d2dPhase p j => Sys2Proof.Machine.execD2dPhase p j s
  | .planSetChange v => Sys2Proof.Machine.execPlanSetChange v s
  | .planSwitchDone => Sys2Proof.Machine.execPlanSwitchDone s
  | .timeStep alsoSlew => Sys2Proof.Machine.execTimeStep alsoSlew s
  | .timeSlew alsoStep => Sys2Proof.Machine.execTimeSlew alsoStep s
  | .slewAdjust => Sys2Proof.Machine.execSlewAdjust s
  | .ppsInEdge => Sys2Proof.Machine.execPpsInEdge s
  | .pwrDomWrite p dom en => Sys2Proof.Machine.execPwrDomWrite p dom en s
  | .domainReached p dom => Sys2Proof.Machine.execDomainReached p dom s
  | .pwrLimitWrite w => Sys2Proof.Machine.execPwrLimitWrite w s
  | .thmSample p reading => Sys2Proof.Machine.execThmSample p reading s
  | .thermalFrameStart p => Sys2Proof.Machine.execThermalFrameStart p s
  | .thermalWithdraw p => Sys2Proof.Machine.execThermalWithdraw p s
  | .dutyUpdate p => Sys2Proof.Machine.execDutyUpdate p s
  | .pwrMeasure watts => Sys2Proof.Machine.execPwrMeasure watts s
  | .thermtrip p => Sys2Proof.Machine.execThermtrip p s
  | .fltStop => Sys2Proof.Machine.execFltStop s
  | .hwStopTimeout => Sys2Proof.Machine.execHwStopTimeout s
  | .hostStop => Sys2Proof.Machine.execHostStop s
  | .fltClear => Sys2Proof.Machine.execFltClear s
  | .istWindow entry r => Sys2Proof.Machine.execIstWindow entry r s
  | .evrRecord r => Sys2Proof.Machine.execEvrRecord r s
  | .evrSoft r => Sys2Proof.Machine.execEvrSoft r s
  | .ccWatchdog p => Sys2Proof.Machine.execCcWatchdog p s
  | .ccWdogKick p => Sys2Proof.Machine.execCcWdogKick p s
  | .svnCommit => Sys2Proof.Machine.execSvnCommit s
  | .smbusFallback => Sys2Proof.Machine.execSmbusFallback s
  | .setEndpointId b eid => Sys2Proof.Machine.execSetEndpointId b eid s
  | .getEndpointId b => Sys2Proof.Machine.execGetEndpointId b s
  | .getMctpVersionSupport b typ => Sys2Proof.Machine.execGetMctpVersionSupport b typ s
  | .getMessageTypeSupport b => Sys2Proof.Machine.execGetMessageTypeSupport b s
  | .getEndpointUuid b => Sys2Proof.Machine.execGetEndpointUuid b s
  | .setEventReceiver b eid => Sys2Proof.Machine.execSetEventReceiver b eid s
  | .pldmEffecterWrite watts => Sys2Proof.Machine.execPldmEffecterWrite watts s
  | .pldmFirmwareUpdate image => Sys2Proof.Machine.execPldmFirmwareUpdate image s
  | .getVersion via req => Sys2Proof.Machine.execGetVersion via req s
  | .getCapabilities via req => Sys2Proof.Machine.execGetCapabilities via req s
  | .negotiateAlgorithms via req => Sys2Proof.Machine.execNegotiateAlgorithms via req s
  | .getDigests via req => Sys2Proof.Machine.execGetDigests via req s
  | .getCertificate via slot req => Sys2Proof.Machine.execGetCertificate via slot req s
  | .challenge via slot req => Sys2Proof.Machine.execChallenge via slot req s
  | .getMeasurements via slot ix req => Sys2Proof.Machine.execGetMeasurements via slot ix req s
  | .getSlhSig via req => Sys2Proof.Machine.execGetSlhSig via req s
  | .registerWrite fn addr size value poisoned => Sys2Proof.Machine.execRegisterWrite fn addr size value poisoned s
  | .registerRead fn addr size => Sys2Proof.Machine.execRegisterRead fn addr size s
  | .fetchGranuleReturn c => Sys2Proof.Machine.execFetchGranuleReturn c s
  | .localSramScrub p found => Sys2Proof.Machine.execLocalSramScrub p found s
  | .fwAssert => Sys2Proof.Machine.execFwAssert s
  | .supplyRailChange r inRange => Sys2Proof.Machine.execSupplyRailChange r inRange s
  | .i3cAddressAssigned addr => Sys2Proof.Machine.execI3cAddressAssigned addr s
  | .testPortAccess op => Sys2Proof.Machine.execTestPortAccess op s
  | .bbDone => Sys2Proof.Machine.execBbDone s

end Sys2Proof.Machine
end

