-- ==== Sys2Proof/Machine/Engines.lean ====
section
/-! DEFINITION. One tick of a core's engines (R165, R183, R215, R225 to R227, R500): every operation in flight reads the beats of its tick as
they stood before it, writes beats that depend on what it has read, and meets its events. -/

namespace Sys2Proof.Machine

/-! ## Results -/

/-- What an operation writes and its events, as far as the beats that it has read tell. -/
def opResult (s : State) (k : Nat) (o : Op) : Result :=
  match o.eng with
  | 0 => { out := o.bytes 0 (fld o.desc 0).extent }
  | 1 => saResult s o
  | 2 => veResult s o
  | 3 => shResult s o
  | 4 => gsResult o
  | 5 => clSum o
  | 6 => spResult s o
  | 7 => { out := (expanded s k o).bytes }
  | _ => {}

/-! ## Reads -/

/-- A beat that an operation has read. -/
structure BeatRead where
  op : Nat
  slot : Nat
  bytes : List Byte
deriving DecidableEq, Repr

/-- The lowest beat that is read in a tick: an armed injection acts on it (R259). -/
def lowestBeat (dues : List Due) : Option Nat := (dues.map (·.acc.beat)).min?

/-- The reads of a tick, one after another. -/
def readDues (k : Nat) (low : Option Nat) : List Due → State × List BeatRead → State × List BeatRead
  | [], acc => acc
  | x :: xs, acc =>
    let (bs, s1) := readBeat acc.1 k x.eng x.acc.beat (low == some x.acc.beat)
    readDues k low xs (s1, acc.2 ++ [⟨x.op, x.acc.slot, bs⟩])

/-- An operation with the beats that it has just read. -/
def Op.take (o : Op) (reads : List BeatRead) : Op :=
  { o with seen := (reads.filter fun r => r.op == o.id).foldl (fun m r => FMap.put [] m r.slot r.bytes) o.seen }

/-! ## Events -/

/-- The events of this tick: those of tick `o.age`, unless the operation stands still, and those of the tick before that a late access has
brought (R226). -/
def eventsNow (old new : Result) (age : Nat) (stands late : Bool) : List Ev :=
  (if late && age != 0 then (new.at (age - 1)).diff (old.at (age - 1)) else []) ++ (if stands then [] else new.at age)

/-! ## One operation -/

/-- The signal of a LOCAL to LOCAL COPY comes in the tick in which its last beat is written, the one before its completion (R183, R184). -/
def localSignal (k : Nat) (o : Op) (s : State) : State :=
  match o.sig, o.work with
  | some g, .fixed dur =>
    if o.age + 1 = dur then counterOp s ⟨rowOrder 2 (virtOf s k) o.id, k, g.ctr, g.op, g.value, 2, localSrc s k⟩ else s
  | _, _ => s

/-- The beats of an ADD_SEND to RANK space that enter the packet buffer in this tick: the next one, once its sum is there (R207, R310). -/
def addSendBeats (s : State) (o : Op) : Nat := match o.work with
  | .rank (some (_, left)) false => if clockRuns s ∧ left < (fld o.desc 0).extent ∧ left + 4 ≤ o.age then 1 else 0
  | _ => 0

/-- What leaves the core in this tick: `js` are the slots that have just been read, `ws` those that have just been written. -/
def leaveCore (k : Nat) (o : Op) (r : Result) (js ws : List Nat) (s : State) : State × Op :=
  match o.eng, dOpc o.desc with
  | 0, 1 => (match o.work with
      | .rank _ _ => rankOut k o js.length s
      | _ => copyOut k o js s)
  | 0, _ => pagedOut k o o.age js s
  | 5, 2 =>
    let s1 := addSendOut k o r ws s
    rankOut k o (addSendBeats s1 o) s1
  | _, _ => (s, o)

/-- Complete an operation after its tick x when its time is up: a fixed-latency one in its last tick; an EXPAND is complete 16 pt after its
last output beat (R179, R215). -/
def Op.close (o : Op) (wall x : Nat) (stands : Bool) : Op :=
  match o.work with
  | .fixed dur => if o.done.isNone && !stands && decide (dur ≤ x) then { o with done := some wall } else o
  | .expand none => if (fld o.desc 0).extent ≤ o.age ∧ o.again.isEmpty then { o with work := .expand (some (wall + 16)) } else o
  | _ => o

/-- The age of an operation after a tick: an EXPAND counts the output beats that it has come to. -/
def Op.ageNext (o : Op) (stands : Bool) : Nat :=
  if o.eng = 7 then o.age + (if o.frozen then 0 else (expandBeats o).length) else if stands then o.age else o.age + 1

/-- Write to host memory what a completed transfer has sent, once its last beat has left (R183). -/
def storeHost (s : State) (o : Op) : State × Op :=
  match o.work with
  | .hostOut beats =>
    if o.done.isSome && decide ((fld o.desc 0).extent ≤ o.feedNext) then
      ({ s with hostMem := beats.foldl (fun m e => Mem.store m (o.eff.getD 1 0 + 64 * e.1) e.2) s.hostMem }, { o with work := .hostOut [] })
    else (s, o)
  | _ => (s, o)

/-- One tick of an operation of core k, given what the core has read, the accesses that got their banks and those that lost them, and
whether its engine freezes (R169, R227). -/
def opTick (k : Nat) (reads : List BeatRead) (won lost : List Due) (stands : Bool) (s : State) (o : Op) : State × Op :=
  if !opMoves s o then (s, o)
  else
    let mine := won.filter fun x => x.op == o.id
    let ws := (mine.filter (·.acc.write)).map (·.acc)
    let js := (mine.filter fun x => !x.acc.write).map (·.acc.slot)
    let x := o.age
    let o1 := o.take reads
    let (s1, o2) := if o.eng = 1 ∧ !stands then saTick k o1 x s else (s, o1)
    let r := opResult s1 k o2
    let s2 := ws.foldl (fun s a => portWrite s k a.beat (r.beat a.slot)) s1
    let s3 := (eventsNow (opResult s k o) r x stands (!o.again.isEmpty && o.timed)).foldl (fireEv k o2) s2
    let s4 := if o.eng = 7 then expandEvents k o2 (expanded s k o2) (ws.map (·.slot)) s3 else s3
    let (s5, o3) := leaveCore k o2 r js (ws.map (·.slot)) s4
    let s6 := if stands then s5 else localSignal k o3 s5
    let back := (lost.filter fun x => x.op == o.id).map (·.acc)
    let (s7, o4) := storeHost s6 { o3 with again := back, frozen := stands, age := o.ageNext stands }
    (s7, o4.close s.wall x stands)

/-- Every operation of a core in turn. -/
def opsTick (k : Nat) (reads : List BeatRead) (won lost : List Due) (groups : List Nat) : List Op → State × List Op → State × List Op
  | [], acc => acc
  | o :: os, acc =>
    let stands := !o.timed && groups.contains (freezeGroup o)
    let (s1, o1) := opTick k reads won lost stands acc.1 o
    opsTick k reads won lost groups os (s1, acc.2 ++ [o1])

/-- An operation that is complete has nothing left to do. -/
def Op.spent (o : Op) (wall : Nat) : Bool :=
  (match o.done with
    | some w => decide (w < wall)
    | none => false) && o.again.isEmpty && (match o.work with
    | .fixed dur => decide ((if o.eng = 1 ∧ dOpc o.desc = 2 then Nat.max dur (passes o.desc + 4) else dur) ≤ o.age)
    | .sending (some n) => decide (n ≤ o.feedNext)
    | .rank (some (_, left)) _ => decide ((fld o.desc 0).extent ≤ left)
    | .hostOut beats => beats.isEmpty
    | _ => true)

/-! ## One core -/

/-- What an operation takes before the accesses of the tick: the running EXPAND its input, a RANK transfer a packet buffer. -/
def prepareCore (k : Nat) (s : State) : State :=
  let s1 := expandTake k (s.modCore k (Core.flow s.wall))
  (s1.core k).inflight.foldl (fun s o => match o.work with
    | .rank (some _) true => let (s2, o2) := rankBuffer k o s; s2.modCore k fun c => modOp c o.id fun _ => o2
    | _ => s) s1

/-- The datapaths of the groups that freeze in this tick, and SA_FREEZE_TICKS (R169, R175). -/
def freezeCore (k : Nat) (groups : List Nat) (s : State) : State :=
  let s1 := groups.foldl (fun s g => s.modCore k fun c => c.freeze s.ptc.toNat g) s
  if groups.any fun g => g == 1 || g == 16 then countFreeze s1 (k / 288) else s1

/-- One tick of a core's engines. -/
def coreTick (k : Nat) (s0 : State) : State :=
  let s := prepareCore k s0
  let ops := (s.core k).inflight
  if ops.isEmpty then s
  else
    let dues := coreDues s k ops
    let won := dues.filter fun x => (loserTo dues x).isNone
    let lost := dues.filter fun x => (loserTo dues x).isSome
    let groups := frozenGroups ops lost
    let rd := won.filter fun x => !x.acc.write
    let s1 := freezeCore k groups (raiseConflicts s k dues)
    let (s2, reads) := readDues k (lowestBeat rd) rd (s1, [])
    let (s3, ops1) := opsTick k reads won lost groups ops (s2, [])
    s3.modCore k fun c => { c with inflight := ops1.filter fun o => !o.spent s.wall }

/-- One tick of every core's engines, and of the interfaces that their beats come to. -/
def enginesTick (s : State) : State :=
  let s1 := (s.cores.map (·.1)).foldl (fun s k => coreTick k s) s
  if planMoves s then crossTick s1 else s1

end Sys2Proof.Machine
end

