-- ==== Sys2Proof/Machine/Tick.lean ====
section
/-! DEFINITION. One plan clock period: what happens whatever is commanded (log entry 5). -/

namespace Sys2Proof.Machine

/-- One nanosecond of the time base (R398 to R400): TIME advances by 1, or takes the value of a STEP; the last nanosecond
of each block of 2,048 since a SLEW write waits for SLEW_ADJUST while a slew remains. -/
def nanosecond (s : State) : State :=
  let c := s.clk
  let at_ := c.slewAt + 1
  match c.stepTo with
  | some v => { s with time := v, clk := { c with slewAt := at_, stepTo := none } }
  | none =>
  if c.slewLeft ≠ 0 ∧ at_ % 2048 = 0 then { s with clk := { c with slewAt := at_, slewOwed := c.slewOwed + 1 } }
  else { s with time := s.time + 1, clk := { c with slewAt := at_ } }

/-- TIME over one plan clock period (R87): it never stops. -/
def timePasses (s : State) : State :=
  let f := s.clk.frac + periodFifteenths s
  let s1 := { s with clk := { s.clk with frac := f % 15 } }
  if f / 15 = 1 then nanosecond s1 else s1

/-- The governor windows for which a BUDGET request of the hold is pending (R408). -/
def pendingTokens (h : Hold) : List Nat :=
  (h.reqs.flatMap fun r => r.items.filterMap fun e => match e with
    | (.token key _, false) => some key
    | _ => none).eraseDups

/-- A held tick (R88, R408): the hold's length grows, and each pending BUDGET window is paid 1. -/
def heldTick (s : State) (h : Hold) : State :=
  { s with
    hold := some { h with ticks := h.ticks + 1 }
    windows := (pendingTokens h).foldl (fun m key =>
      let w := FMap.look {} m key
      FMap.put {} m key { w with paid := w.paid + 1 }) s.windows }

/-- What each core's stream does in a plan clock period by itself: a start tick has its effects (R62, R70). -/
def streamsMove (s : State) : State := (s.cores.filter fun e => e.2.stream.startDue.isSome).foldl (fun s e => startTick s e.1) s

/-- The second half of an accepted BOOT_CTRL.START (R447): in the period after it, a GO with the TIMED value last written to
every core whose STR_LAUNCH_START is not 0. -/
def startGos (s : State) : State :=
  if !s.boot.startPending then s
  else (allCores s).foldl (fun s k => if s.reg64 (strBlk k) 0x98 = 0 then s else strGo (s.regBit (strBlk k) 0xA0 1) k s)
    { s with boot := { s.boot with startPending := false } }

/-- What a period does at its end beside time: the engines' accesses and results, the slices of the in-service test, and the row counters'
operations in their order (R267, R474, R500). What the same-tick rules remember of this period ends with it (R11, R145, R225). -/
def periodEnds (s : State) : State :=
  { rowCountersTick (istTick (enginesTick s)) Config.hostSignaller with landed := [], setNow := [], incNow := [], numWas := [] }

/-- PTC after the period: 1 more unless held, stopped or switching (R86). -/
def ptcNext (s : State) : DWord := if planMoves s then s.ptc + 1 else s.ptc

/-- One plan clock period. -/
def tick (s : State) : State :=
  if s.pins.perst then s
  else
    let s0 := periodEnds s
    let s1 := timePasses { s0 with wall := s.wall + 1 }
    let s2 := { s1 with ptc := ptcNext s }
    settle (bindStep1 (startGos (streamsMove (match s.hold with
      | some h => if h.frozen then heldTick s2 h else s2
      | none => s2))))

end Sys2Proof.Machine
end

