-- ==== Sys2Proof/WellFormed.lean ====
section
/-! DEFINITION. Well-formed commands: every operand that the manual bounds is in its range. A meaning is defined on every command; one
whose operand names nothing (an absent panel, a disabled slot, a node that is none) leaves the state as it is. -/

namespace Sys2Proof

/-- A panel number (R16). -/
def panelOk (p : Nat) : Bool := decide (p < 8)
/-- A core (R19). -/
def coreOk (c : CoreId) : Bool := panelOk c.panel && decide (c.core < 288)
/-- A package link number (R16). -/
def linkOkNo (l : Nat) : Bool := decide (l < 32)
/-- A cast-on node number (R274, R290). -/
def nodeOk (n : Nat) : Bool := decide (n < 64)
/-- An input slot of a node (R274, R290). -/
def slotOk (n : Nat) : Bool := decide (n < 32)
/-- A dye lot (R275). -/
def lotOk (n : Nat) : Bool := decide (n < 65536)
/-- A queue pair number (R257). -/
def qpOk (q : Nat) : Bool := decide (q < 262144)
/-- A virtual function (R360). -/
def vfOk (v : Nat) : Bool := decide (1 ≤ v) && decide (v ≤ 64)
/-- A function: 0 = PF (R360). -/
def fnOk (v : Nat) : Bool := decide (v ≤ 64)
/-- An interrupt source (R383). -/
def sourceOk (n : Nat) : Bool := decide (n < 512)
/-- A hart of a control complex (R455). -/
def hartOk (h : Nat) : Bool := decide (h < 4)
/-- A power domain (R402). -/
def domainOk (i : Nat) : Bool := decide (i < 12)
/-- A die-to-die entry of a panel (R419). -/
def d2dOk (i : Nat) : Bool := decide (i < 3)
/-- Where a cast-on packet comes from (R274). -/
def castSrcOk : CastSrc → Bool
  | .node n => nodeOk n
  | .link l => linkOkNo l
/-- The BODY of a NOTICE (R465). -/
def noticeOk (b : NoticeBody) : Bool :=
  nodeOk b.node && decide (b.slot < 256) && decide (b.dir < 2) && decide (b.kind < 8) && decide (b.origin < 2 ^ 20) && decide (b.typ < 256)
  && decide (b.bit < 32) && panelOk b.panel
/-- A supply rail (R491). -/
def railOk : Rail → Bool
  | .vcore p | .vsram p | .vhbm p | .vhbmq p => panelOk p
  | .vhbmPp | .vstash | .vphy | .vio | .v3p3 => true
/-- A test port operation (R489). -/
def testOk : TestOp → Bool
  | .sample _ | .drive _ => true
  | .halt p h | .resume p h => panelOk p && hartOk h
  | .read p h addr | .write p h addr _ => panelOk p && hartOk h && decide (addr < 2 ^ 32)

/-- Every operand of the command is in its range. -/
def Instr.wellFormed : Instr → Bool
  | .perstNDeassert straps => decide (straps.mgmtAddr < 4)
  | .perstNAssert | .bootRom | .hostload | .fwBringup _ | .topoApply | .loadBegin | .loadDone | .bootStart => true
  | .strGo c _ | .segmentStart c | .issueCheck c => coreOk c
  | .holdFreeze | .lateItemArrive _ | .holdPeriodicRefresh | .holdRefresh | .resumeBroadcast | .holdResume | .holdWatchdogExpire
  | .debugHold | .debugRelease | .planSnapTake => true
  | .nop c | .repeat_ c | .chain c | .end_ c | .wait c | .signal c | .mark c | .break_ c | .region c | .copy c | .pagedRd c
  | .pagedWr c | .feed c | .inputDigestUpdate c => coreOk c
  | .hostWindowGrant => true
  | .hostRequestFail c _ _ count _ => coreOk c && decide (1 ≤ count)
  | .loadPlanes c | .multiply c | .add c | .sub c | .mul c | .fma c | .min c | .max c | .adds c | .subs c | .and c | .or c | .xor c
  | .shl c | .sra c | .rcp c | .sqrt c | .rsqrt c | .exp2 c | .log2 c | .exp c | .tanh c | .sigmoid c | .cvt c | .rsum c | .rmax c
  | .transpose c | .blockperm c | .reshape c | .packW c | .packA c | .unpack c | .gather c | .scatter c | .mask c | .clAdd c
  | .addSend c | .argmax c | .topk c | .sort c | .sample c | .expand c | .descriptorComplete c _ | .streamDrained c
  | .landingPortWrite c => coreOk c
  | .sknWriteback c bank => coreOk c && decide (bank < 32)
  | .sknScrub c found => coreOk c && found.all fun e => decide (e.addr < 0x400000)
  | .sknInject p _ | .saInject p _ => panelOk p
  | .hbmGranuleStart p st pc _ => panelOk p && decide (st < 3) && decide (pc < 32)
  | .fetchGranuleRequest c => coreOk c
  | .hbmRefreshWindow p st | .hbmScrubSlot p st _ | .hbmFreeRefresh p st => panelOk p && decide (st < 3)
  | .hbmPatrolScrub p st pc _ => panelOk p && decide (st < 3) && decide (pc < 32)
  | .hbmModeWrite p st _ | .hbmInject p st _ => panelOk p && decide (st < 3)
  | .bar4Access off _ => decide (off < 2 ^ 40)
  | .stashPageDecoded p _ _ _ | .stashPageDeliver p | .stsRead p | .stsProgram p | .stsErase p | .stsVerify p | .stsBbRead p
  | .stsCommandDone p _ _ => panelOk p
  | .stashBlockScrub p block _ uncorrPage => panelOk p && decide (block < 8192) && uncorrPage.all fun i => decide (i < 8192)
  | .blackBoxCopy _ _ => true
  | .rowValueWrite p _ => panelOk p
  | .castCtrlArrive => true
  | .castArrive src lot node slot => castSrcOk src && lotOk lot && nodeOk node && slotOk slot
  | .castRelease src lot node remaining _ _ => castSrcOk src && lotOk lot && nodeOk node && decide (remaining < 2 ^ 32)
  | .localRelease => true
  | .castonNodeTimeout n => nodeOk n
  | .castAbort src lot node => castSrcOk src && lotOk lot && nodeOk node
  | .notice src lot b => castSrcOk src && lotOk lot && noticeOk b
  | .castRearm => true
  | .bindOffStart lot => lotOk lot
  | .bindOffComplete => true
  | .plyEnWrite l _ | .trainingDone l | .trainingTimeout l | .identExchange l _ _ => linkOkNo l
  | .gaugingDone l gauge => linkOkNo l && decide (gauge < 2 ^ 32)
  | .laneLockLost l => linkOkNo l
  | .frameReceive l bytes _ => linkOkNo l && decide (bytes.length = 268)
  | .frameSlot l => linkOkNo l
  | .ackTimerExpire l cls => linkOkNo l && decide (cls < 3)
  | .graceExpire l | .plyRetrain l | .plyRegauge l => linkOkNo l
  | .plyLotWrite l e _ => linkOkNo l && decide (e < 4)
  | .fabCtxActivate x _ => decide (x < 4)
  | .fabTblWrite _ => true
  | .injectionGrant c => coreOk c
  | .dataPacket l => linkOkNo l
  | .fwMsg l vl => linkOkNo l && decide (vl < 2)
  | .sqTail q v | .cqHead q v => qpOk q && decide (v < 2 ^ 32)
  | .generate q _ _ | .cancel q _ | .ripBack q _ | .forecast q _ | .createQp q _ | .deleteQp q _ | .registerPrefix q _ _
  | .releasePrefix q _ | .registerMotif q _ | .releaseMotif q _ | .assignQp q _ => qpOk q
  | .prefixPrefillDone slot => decide (slot < 1048576)
  | .motifReleaseDone slot => decide (slot < 65536)
  | .servingStep _ _ => true
  | .forecastBatch p _ _ _ => panelOk p
  | .completionPost q _ => qpOk q
  | .srvAqSizeWrite vf _ => fnOk vf
  | .flrVf vf => vfOk vf
  | .pfReset _ => true
  | .linkChange speed width _ => decide (speed < 8) && decide (width < 32)
  | .hostIrqRearm => true
  | .vfIrqRearm vf => vfOk vf
  | .msixUnmask fn => fnOk fn
  | .icuSourceEvent p n _ => panelOk p && sourceOk n
  | .icuClaim p h => panelOk p && hartOk h
  | .icuEoi p h src => panelOk p && hartOk h && sourceOk src
  | .icuHoldoffExpire p g => panelOk p && decide (g < 16)
  | .icuXpanelGo p target => panelOk p && panelOk target
  | .icuPendingClear p n => panelOk p && sourceOk n
  | .sysrefLost | .holdoverEnd | .referenceRestored _ | .refclkLost | .pllUnlock => true
  | .d2dCrcFail p j | .d2dRetrySuccess p j | .d2dPhase p j => panelOk p && d2dOk j
  | .planSetChange v => decide (v < 4)
  | .planSwitchDone | .timeStep _ | .timeSlew _ | .slewAdjust | .ppsInEdge => true
  | .pwrDomWrite p dom _ | .domainReached p dom => panelOk p && domainOk dom
  | .pwrLimitWrite _ => true
  | .thmSample p reading => panelOk p && decide (-1024 ≤ reading) && decide (reading < 1024)
  | .thermalFrameStart p | .thermalWithdraw p | .dutyUpdate p => panelOk p
  | .pwrMeasure _ => true
  | .thermtrip p => panelOk p
  | .fltStop | .hwStopTimeout | .hostStop | .fltClear => true
  | .istWindow entry _ => decide (entry < 4096)
  | .evrRecord r | .evrSoft r => decide (r ≤ 8)
  | .ccWatchdog p | .ccWdogKick p => panelOk p
  | .svnCommit | .smbusFallback => true
  | .setEndpointId _ eid => decide (eid < 256)
  | .getEndpointId _ => true
  | .getMctpVersionSupport _ typ => decide (typ < 256)
  | .getMessageTypeSupport _ | .getEndpointUuid _ => true
  | .setEventReceiver _ eid => decide (eid < 256)
  | .pldmEffecterWrite _ | .pldmFirmwareUpdate _ | .getVersion _ _ | .getCapabilities _ _ | .negotiateAlgorithms _ _ | .getDigests _ _
    => true
  | .getCertificate _ slot _ | .challenge _ slot _ => decide (slot < 8)
  | .getMeasurements _ slot ix _ => decide (slot < 8) && decide (ix < 256)
  | .getSlhSig _ _ => true
  | .registerWrite fn _ _ _ _ | .registerRead fn _ _ => decide (fn < 73)
  | .fetchGranuleReturn c => coreOk c
  | .localSramScrub p found => panelOk p && found.all fun e => decide (e.addr < 0x200000)
  | .fwAssert => true
  | .supplyRailChange r _ => railOk r
  | .i3cAddressAssigned addr => decide (addr < 128)
  | .testPortAccess op => testOk op
  | .bbDone => true

end Sys2Proof
end

