-- ==== Sys2Proof/Safety.lean ====
section
/-! DEFINITION. What counts as a safe run of the package, and the terms that the statements are made in: memories, frames, and
the issue of a descriptor. -/

namespace Sys2Proof.Machine

/-! ## Memories -/

/-- Every memory of the package is in its canonical form: addresses strictly rising, no entry that reads as an unlisted byte. -/
def MemoriesCanonical (s : State) : Prop :=
  Mem.wf s.skein = true ∧ Mem.wf s.hbm = true ∧ Mem.wf s.stashMem = true ∧ Mem.wf s.sram = true ∧ Mem.wf s.hostMem = true
  ∧ Mem.wf s.bootMem = true ∧ Mem.wf s.bbMem = true

/-- The memories other than the skeins and the HBM are the same. -/
def SameStores (s t : State) : Prop :=
  t.stashMem = s.stashMem ∧ t.sram = s.sram ∧ t.hostMem = s.hostMem ∧ t.bootMem = s.bootMem ∧ t.bbMem = s.bbMem

/-- Every byte of every memory reads as before. -/
def SameMemories (s t : State) : Prop := t.skein = s.skein ∧ t.hbm = s.hbm ∧ SameStores s t

/-- What no command changes: the queue, the grade and the other fuses; the minimum SVN never falls (R424). -/
def Enduring (s t : State) : Prop :=
  t.pending = s.pending ∧ t.fuses = { s.fuses with svnMin := t.fuses.svnMin } ∧ s.fuses.svnMin ≤ t.fuses.svnMin

/-! ## Commands on pins -/

/-- The rows that act whatever the package does: the two edges of PERST_N, a supply rail, the overtemperature comparator. -/
def onPins : Instr → Bool
  | .perstNDeassert _ | .perstNAssert | .thermtrip _ | .supplyRailChange _ _ => true
  | _ => false

/-! ## The issue of a descriptor -/

/-- No error is armed in SKN_INJECT for core `k` (R259). -/
def noInjection (s : State) (k : Nat) : Prop := injectArmed s k = false

/-- Core `c`, of key `k`, has as its front checked descriptor `q`, one of engine `eng` and operation `opcs`, whose time to issue
has come (R53, R58). -/
def Issues (s : State) (c : CoreId) (k : Nat) (q : Checked) (eng : Nat) (opcs : List Nat) : Prop :=
  Live s = true ∧ coreOf s c = some k ∧ (s.core k).stream.checked.head? = some q ∧ dEng q.desc = eng ∧ dOpc q.desc ∈ opcs
  ∧ mayIssue s k q = true

/-- Core `k` once descriptor `q` has issued: it has left the checked ones and is counted, its TAG has taken its slot, and in an untimed
segment its datapaths are occupied from now on (R58, R60, R62, R83, R180). -/
def issuedCore (s : State) (k : Nat) (q : Checked) : Core :=
  let c := s.core k
  let c1 := if q.timed then c else occupy c q.desc s.ptc.toNat
  { c1 with
    tags := if dTag q.desc = 0 then c.tags else FMap.put none c.tags (dTag q.desc % 256) (some (dTag q.desc, q.id))
    port := c1.port.filter fun x => decide (s.ptc.toNat < x.2.2)
    stream := { c.stream with checked := c.stream.checked.drop 1, issued := c.stream.issued + 1, depthAtIssue := q.depth, lastIssue := s.ptc.toNat } }

/-- Beside the cores `t` is `w`, but for registers with what follows from them (counts, records, triggers, stop requests) and the interrupt
side of the functions. -/
def RegsFollow (w t : State) : Prop :=
  t = { w with cores := t.cores, fns := t.fns, sent := t.sent, regs := t.regs, cnt := t.cnt, evrs := t.evrs, faultAt := t.faultAt, flt := t.flt,
               setNow := t.setNow, incNow := t.incNow }

/-- Nothing but core `k` changes, and what `RegsFollow` names. -/
def CoreFrame (s t : State) (k : Nat) : Prop := (∀ j, j ≠ k → t.core j = s.core j) ∧ RegsFollow s t

/-- Beside the cores, `t` is `w`: only the interrupt side of the functions may follow, and, where a window of the in-service test is open on
core `k`, the record of the conflict (R475). -/
def Follows (w t : State) (k : Nat) : Prop :=
  RegsFollow w t ∧ (FMap.look [] w.flt.istOpen k = [] → t = { w with cores := t.cores, fns := t.fns, sent := t.sent })

/-- `i` answers a state in which core `k` is `c`, the other cores are as before, and everything else is as in `w`. -/
def Leaves (i : Instr) (s : State) (k : Nat) (c : Core) (w : State) : Prop :=
  ∃ t, exec i s = .next t ∧ t.core k = c ∧ (∀ j, j ≠ k → t.core j = s.core j) ∧ Follows w t k

/-- Core `k` once `q` has issued as the operation `o`. -/
def startedCore (s : State) (k : Nat) (q : Checked) (o : Op) : Core :=
  { issuedCore s k q with inflight := (s.core k).inflight ++ [o] }

/-- A descriptor issues as the operation `o`, which joins those in flight; no memory and nothing else changes. -/
def Starts (i : Instr) (s : State) (k : Nat) (q : Checked) (o : Op) : Prop := Leaves i s k (startedCore s k q o) s

/-- The fixed-latency operation that a descriptor issues as (R179). -/
def fixedOp (s : State) (k : Nat) (q : Checked) : Op := mkOp s k q (.fixed ((opPlan q.desc).dur.getD 0)) 0

/-- A row's descriptor issues as a fixed-latency operation. -/
def StartsFixed (i : Instr) (s : State) (k : Nat) (q : Checked) : Prop := Starts i s k q (fixedOp s k q)

/-- The transfer that a descriptor issues as (R183, R371). -/
def transferOp (s : State) (k : Nat) (q : Checked) (work : Work) (sig : Option Sig) : Op :=
  { mkOp s k q work (lateCause (s.core k) q.id q.desc) with
    sig := sig, hostWin := q.timed && usesHost q.desc, fromStash := (fld q.desc 0).space == 2 }

/-- What operations of an engine and operation codes make of the beats that they have read is `f`. -/
def Gives (eng : Nat) (opcs : List Nat) (f : State → Nat → Op → List Byte) : Prop :=
  ∀ (s : State) (k : Nat) (o : Op), o.eng = eng → dOpc o.desc ∈ opcs → (opResult s k o).out = f s k o

/-- Lane by lane: element i of operand 0 with element i of operand 1, which repeats when it is shorter, as the elements of operand 2 (R188).
-/
def laneBytes (o : Op) (f : Nat → Nat → Nat) : List Byte :=
  fieldBytes o.desc 2 ((List.range (16 * (fld o.desc 2).extent)).map fun i => f ((o.els 0).getD i 0) ((o.els 1).getD (i % (o.els 1).length) 0))

/-! ## One tick of an operation -/

/-- Operation `o` of engine `eng` is the only one in flight on core `k`, a fixed-latency one that is not complete; this tick no beat has
landed, no access meets another at its bank, and no error is stored or armed. -/
def Alone (s : State) (k : Nat) (o : Op) : Prop :=
  (s.core k).inflight = [o] ∧ (∃ dur, o.work = .fixed dur) ∧ o.done = none ∧ o.again = [] ∧ o.frozen = false ∧ o.eng = dEng o.desc
  ∧ o.eng ≤ 6 ∧ (o.eng = 0 → dOpc o.desc = 1) ∧ s.landed = [] ∧ s.skErr = [] ∧ noInjection s k
  ∧ (o.eng = 1 ∨ ((accesses o (peekAt s k) o.age).map fun a => bankOf a.beat).Nodup)

/-- The operation with the beats of its tick, as they stood before it (R225). -/
def withReads (s : State) (k : Nat) (o : Op) : Op :=
  { o with seen := ((accesses o (peekAt s k) o.age).filter (!·.write)).foldl (fun m a => FMap.put [] m a.slot (Mem.bytes s.skein (skAddr k a.beat) 64)) o.seen }

/-- The beats that the operation writes in its tick. -/
def tickWrites (s : State) (k : Nat) (o : Op) : List Access := (accesses o (peekAt s k) o.age).filter (·.write)

/-- The skeins after those writes, with the beats of `o` as far as it has read. -/
def writtenSkein (s : State) (k : Nat) (o : Op) : Mem :=
  (tickWrites s k o).foldl (fun m a => Mem.store m (skAddr k a.beat) ((opResult s k (withReads s k o)).beat a.slot)) s.skein

/-- The plane sets and the accumulator bank of core `k` are as before. -/
def SameArray (s t : State) (k : Nat) : Prop :=
  (t.core k).set0 = (s.core k).set0 ∧ (t.core k).set1 = (s.core k).set1 ∧ (t.core k).bank = (s.core k).bank

/-! ## Entries of a queue pair -/

/-- Firmware visits queue pair `q`, whose next entry is `e`, of operation `opc` (R331). -/
def Takes (s : State) (q : Nat) (x : Qp) (e : List Byte) (opc : Nat) : Prop :=
  Live s = true ∧ s.boot.stage = .ready ∧ s.qp q = some x ∧ x.waits = true ∧ visitNext s = some q ∧ hostReach s (qpOwner s q) = true
  ∧ hostGet s (qpOwner s q) (x.sq + 64 * x.sqHead) 64 = e ∧ ent e 0 1 = opc

/-- The submission ring head after the entry. -/
def headAfter (x : Qp) : Nat := (x.sqHead + 1) % 2 ^ x.s

/-- The queue pair once the entry is taken. -/
def takenQp (x : Qp) : Qp := { x with sqHead := headAfter x, tSubmit := x.tSubmit.drop 1 }

/-- T_SUBMIT of the entry. -/
def submittedAt (s : State) (x : Qp) : Nat := x.tSubmit.headD s.time.toNat

/-- The entry as it is taken. -/
def asTaken (s : State) (q : Nat) (x : Qp) (e : List Byte) : Taken := ⟨q, qpOwner s q, takenQp x, e, headAfter x, submittedAt s x⟩

/-- The completion of an entry (R333): TTFT is only that of a FORECAST. -/
def complFor (s : State) (x : Qp) (e : List Byte) (status result : Nat) : Compl :=
  { cid := ent e 4 4, status := status, sqhd := headAfter x, result := result
    ttft := if ent e 0 1 = 4 then Nat.min (s.time.toNat - submittedAt s x) 0xFFFFFFFF else 0 }

/-- Queue pair `q` has its entry taken and `c` ready to post. -/
def Completes (t : State) (q : Nat) (x : Qp) (c : Compl) : Prop := t.qp q = some { takenQp x with ready := x.ready ++ [c] }

/-- Beside the serving scheduler's state nothing changes but registers of the SRV and VFN blocks with what follows from them: causes, errors,
their counts, triggers and messages. -/
def OnlyServing (s t : State) : Prop :=
  t = { s with srv := t.srv, regs := t.regs, cnt := t.cnt, evrs := t.evrs, faultAt := t.faultAt, fns := t.fns, sent := t.sent, setNow := t.setNow,
               incNow := t.incNow }

/-- The streams' side is as before: skeins, stash, SRAM, host memory, flash and cores. -/
def SameStreams (s t : State) : Prop := t.skein = s.skein ∧ SameStores s t ∧ t.cores = s.cores

/-! ## Cast-on packets -/

/-- A cast-on packet of TYPE `typ` for lot `lot` has come to this package: at the front of virtual lane `vl` of an UP link that allows the lot,
with the BODY and the RPL that `body` asks for (R307), or as the message `m` that is due on an edge from a node of the same lot (R274, R276).
-/
def CastComes (s : State) (src : CastSrc) (lot vl typ : Nat) (body : CtlPacket → Bool → Prop) (m : CastMsg) : Prop :=
  match src with
  | .link l => writable s (plyBlk l) = true ∧ (s.link l).st = .up ∧ lotAllowed s l lot = true
      ∧ ∃ g, (((s.link l).cls (1 + vl)).rx).head? = some g ∧ (ctlOf g.bytes).typ = typ ∧ (ctlOf g.bytes).routed = false
        ∧ (ctlOf g.bytes).vl = vl ∧ (ctlOf g.bytes).lot = lot ∧ body (ctlOf g.bytes) g.rpl
  | .node k => nodeLot s k = lot ∧ ∃ e, s.castMsgs.find? (fun e => decide (e.1 ≤ s.wall) && decide (e.2 = m)) = some e

/-- The messages on the edges once the one from `src` is taken. -/
def msgsAfter (s : State) (src : Option CastSrc) (m : CastMsg) : List (Nat × CastMsg) :=
  match src with
  | some (.node _) => match s.castMsgs.find? fun e => decide (e.1 ≤ s.wall) && decide (e.2 = m) with
    | some e => s.castMsgs.erase e
    | none => s.castMsgs
  | _ => s.castMsgs

/-- Every memory and every core is as before. -/
def Quiet (s t : State) : Prop := SameMemories s t ∧ t.cores = s.cores

/-- Every core for which the receive buffer of link l holds nothing, and no packet comes in, is as before. -/
def CoresKept (l : Nat) (s t : State) : Prop :=
  ∀ k, (∀ b ∈ (s.core k).ret, b.link ≠ some l) → (∀ n d p g w, (s.link l).into ≠ some (.core k n d p g w)) → t.core k = s.core k

/-- Nothing but link l changes among the links, and no memory and no core does. -/
def LinkFrame (s t : State) (l : Nat) : Prop := (∀ j, j ≠ l → t.link j = s.link j) ∧ SameMemories s t ∧ t.cores = s.cores

/-- The data packet at the front of link l's receive buffer begins with the frame `f`, and the rest of the buffer is `rest`: the link is UP
and takes in no other packet (R315). -/
def DataFront (s : State) (l : Nat) (f : RxFrame) (rest : List RxFrame) : Prop :=
  writable s (.ply l) = true ∧ (s.link l).st = .up ∧ (s.link l).into = none ∧ (s.link l).data.rx = f :: rest

/-- The header of that packet begins it, its lot may pass the port, and its job takes data (R315, R319). -/
def DataPasses (s : State) (l : Nat) (f : RxFrame) : Prop :=
  f.sop = true ∧ lotAllowed s l (headOf f.bytes).lot = true ∧ discards s (headOf f.bytes).lot = false

/-- An entry is answered with a status and changes no context: the completion is posted to its queue pair's ring later, and every other
queue pair is as before. -/
def Answers (i : Instr) (s : State) (q : Nat) (x : Qp) (e : List Byte) (status : Nat) : Prop :=
  ∃ t, exec i s = .next t ∧ Completes t q x (complFor s x e status 0) ∧ (∀ j, j ≠ q → t.qp j = s.qp j) ∧ t.srv.ctxs = s.srv.ctxs
    ∧ OnlyServing s t

/-- An entry waits for step 3 of R347 as a taken command. -/
def Waits (i : Instr) (s : State) (q : Nat) (x : Qp) (c : TakenCmd) : Prop :=
  ∃ t, exec i s = .next t ∧ t.qp q = some (takenQp x) ∧ (∀ j, j ≠ q → t.qp j = s.qp j) ∧ t.srv.taken = s.srv.taken ++ [c]
    ∧ t.srv.ctxs = s.srv.ctxs ∧ OnlyServing s t

end Sys2Proof.Machine
end

