-- ==== Sys2Proof/Certificates/Slice0/Obligations.lean ====
section
/-! DEFINITION. The statements for the provers. Each is about every state that its premises admit, not about runs from reset. -/

open Sys2Proof Sys2Proof.Machine

/-! ## The block and its queue -/

/-- A step with a command at the front of the queue is that command's effect on the state with the queue's rest. -/
def Obligations.StepRunsTheFrontCommand : Prop :=
  ∀ (s : State) (c : Instr) (rest : List Instr), s.pending = c :: rest → step s = exec c { s with pending := rest }

/-- With no command waiting a step is one plan clock period (the model's choice, log entry 5). PTC advances by 1 exactly when no hold is
frozen or due to freeze, the package is not stopped and no setting change runs (R86), TIME goes on at its own rate (R87), and no memory
changes but what the operations in flight write: without one none changes. Under PERST_N nothing moves. The tick of a core whose one
operation has a fixed latency (R179, R500): it reads the beats that its schedule names for this tick as they stood before it and writes
those that it names, with what the operation makes of the beats read so far (R225), then is one tick older, and complete with the last;
while PTC stands still it stands still (R93). -/
def Obligations.AnEmptyQueueLetsOnePlanClockPeriodPass : Prop :=
  (∀ s : State, s.pending = [] → s.pins.perst = true → step s = .next s)
  ∧ (∀ s : State, s.pending = [] → s.pins.perst = false →
      ∃ t, step s = .next t ∧ t.wall = s.wall + 1 ∧ Enduring s t ∧ t.ptc = (if planMoves s then s.ptc + 1 else s.ptc)
        ∧ t.skein = (enginesTick s).skein ∧ t.hostMem = (enginesTick s).hostMem ∧ t.hbm = s.hbm ∧ t.stashMem = s.stashMem ∧ t.sram = s.sram
        ∧ t.bootMem = s.bootMem ∧ t.bbMem = s.bbMem ∧ ((∀ e ∈ s.cores, e.2.inflight = []) → SameMemories s t)
        ∧ (s.clk.stepTo = none → s.clk.slewLeft = 0 → s.clk.frac < 15 → s.time.toNat + 1 < 2 ^ 64 →
          15 * t.time.toNat + t.clk.frac = 15 * s.time.toNat + s.clk.frac + periodFifteenths s))
  ∧ (∀ (s : State) (k : Nat) (o : Op) (dur : Nat), Alone s k o → o.work = .fixed dur →
      let t := coreTick k s
      t.hbm = s.hbm ∧ SameStores s t ∧ (o.eng ≠ 0 → (o.eng = 5 → dOpc o.desc = 1) → ∀ j, j ≠ k → t.core j = s.core j)
      ∧ (planMoves s = false → t.skein = s.skein ∧ (t.core k).inflight = [o])
      ∧ (planMoves s = true → t.skein = writtenSkein s k o
        ∧ ∃ o2, (t.core k).inflight = [o2] ∧ o2.seen = (withReads s k o).seen ∧ o2.age = o.age + 1 ∧ o2.id = o.id ∧ o2.desc = o.desc
          ∧ o2.eff = o.eff ∧ o2.work = o.work ∧ o2.again = [] ∧ o2.done = (if dur ≤ o.age then some s.wall else none)))

/-- A package that runs (PERST_N deasserted, the test strap low, no rail out of range) completes every command, and no command touches the
queue or the fuses, but for the minimum SVN, which never falls. -/
def Obligations.ALivePackageCompletesEveryCommand : Prop :=
  ∀ (i : Instr) (s : State), Live s = true → ∃ t, exec i s = .next t ∧ Enduring s t

/-- Once a rail has left its range, nothing is guaranteed (R494): every command but those on the pins stops by name. -/
def Obligations.ARailOutOfRangeVoidsEveryGuarantee : Prop :=
  ∀ (i : Instr) (s : State), s.pins.spoiled = true → s.pins.perst = false → s.pins.straps.test = false → onPins i = false →
    exec i s = .fault .supplyNoGuarantee

/-- Under PERST_N and in the manufacturing test (R420, R490, R493) no command but those on the pins does anything. -/
def Obligations.ResetHoldsThePackage : Prop :=
  ∀ (i : Instr) (s : State), s.pins.perst = true ∨ s.pins.straps.test = true → onPins i = false → exec i s = .next s

/-- Every step keeps every memory of the package in its canonical form. -/
def Obligations.EveryStepKeepsTheMemoriesCanonical : Prop :=
  ∀ s t : State, MemoriesCanonical s → step s = .next t → MemoriesCanonical t

/-- The memories are canonical at reset, and a byte of each reads 0. -/
def Obligations.MemoriesAreCanonicalAtReset : Prop :=
  MemoriesCanonical State.reset ∧ ∀ a, Mem.byte State.reset.skein a = 0 ∧ Mem.byte State.reset.stashMem a = 0

/-- No step changes the grade, the slot maps, the identity or the key hashes, and none lowers the minimum SVN: the anti-rollback floor
that BOOT_COPY_CHECK compares with stands for good. -/
def Obligations.NoStepLowersTheMinimumSvn : Prop :=
  ∀ (n : Nat) (f : Fuses) (s t : State), { s.fuses with svnMin := 0 } = f ∧ n ≤ s.fuses.svnMin → step s = .next t →
    { t.fuses with svnMin := 0 } = f ∧ n ≤ t.fuses.svnMin

/-- What reset leaves: stage ROM, PTC and TIME 0, every stream IDLE, every row counter 0, no hold, no stop, cast-on IDLE, every ply link
DISABLED, domain 11 of a present panel ON and every other domain OFF, the plan level 8, and no register ever written. -/
def Obligations.ResetLeavesThePackageIdle : Prop :=
  let s := State.reset
  s.boot.stage = .rom ∧ s.ptc = 0 ∧ s.time = 0 ∧ (∀ k, (s.core k).stream.st = .idle) ∧ (∀ k ctr, (counterOf s k ctr).value = 0)
  ∧ s.hold = none ∧ s.flt.stopped = false ∧ s.castSt = .idle ∧ (∀ l, (s.link l).st = .disabled) ∧ s.level = 8
  ∧ (∀ p i, domOn s p i = decide (i = 11 ∧ p < s.fuses.panels)) ∧ (∀ b off, s.reg b off = resetWord b off)
  ∧ s.clk.set = 0 ∧ s.srv.st = .none ∧ s.pending = []

/-! ## Reset and boot -/

/-- PERST_N: its assertion holds the package, forgives a lost rail, cuts a black-box copy short, so that the header page with its digest is not
there (R249, R493), and leaves the stash alone unless a command runs; its deassertion puts every block at its reset state and samples the straps, and keeps the fuses, the
stash, the boot slots, the black-box slots and what lies outside. THERMTRIP_N and the rails: the overtemperature comparator drives its pin
whatever else the package does, as long as VIO and V3P3 are in range; a rail that leaves its range with PERST_N deasserted voids every
guarantee until the next reset, and its return does not restore one. -/
def Obligations.PerstRailsAndThermtripActOnThePins : Prop :=
  (∀ (s : State) (straps : Straps),
      (∃ t, exec .perstNAssert s = .next t ∧ t.pins.perst = true ∧ t.pins.spoiled = false ∧ t.skein = s.skein ∧ t.hbm = s.hbm
        ∧ t.bootMem = s.bootMem ∧ t.hostMem = s.hostMem ∧ t.sram = s.sram ∧ Enduring s t ∧ t.flt.box = []
        ∧ (s.flt.box = [] ∨ s.pins.perst = true → t.bbMem = s.bbMem)
        ∧ (∀ b, s.flt.box = [b] → s.pins.perst = false → b.records.length + 4096 ≤ 2 ^ 22 →
            let base := 2 ^ 25 * b.panel + 2 ^ 22 * b.slot
            (∀ i, i < 4096 → Mem.byte t.bbMem (base + i) = 0)
            ∧ ∀ a, a < base ∨ base + 2 ^ 22 ≤ a → Mem.byte t.bbMem a = Mem.byte s.bbMem a)
        ∧ ((∀ p, (s.stash p).cmd = none) → t.stashMem = s.stashMem))
      ∧ (s.pins.perst = true →
        ∃ t, exec (.perstNDeassert straps) s = .next t ∧ t.pins.perst = false ∧ t.pins.straps = straps
          ∧ t.pins.spoiled = !s.pins.badRails.isEmpty ∧ t.pins.scan = none
          ∧ t.boot = State.reset.boot ∧ t.ptc = 0 ∧ t.time = 0 ∧ t.skein = [] ∧ t.hbm = [] ∧ t.sram = [] ∧ t.cores = [] ∧ t.links = []
          ∧ t.nodes = [] ∧ t.hold = none ∧ t.srv = State.reset.srv ∧ t.flt = State.reset.flt
          ∧ (∀ b off, t.reg b off = resetWord b off)
          ∧ t.stashMem = s.stashMem ∧ t.bootMem = s.bootMem ∧ t.bbMem = s.bbMem ∧ t.hostMem = s.hostMem ∧ t.fuses = s.fuses)
      ∧ (s.pins.perst = false → exec (.perstNDeassert straps) s = .next s))
  ∧ (∀ (s : State) (p : Nat) (r : Rail),
      (p < s.fuses.panels → Rail.vio ∉ s.pins.badRails → Rail.v3p3 ∉ s.pins.badRails →
        ∃ t, exec (.thermtrip p) s = .next t ∧ t.pins = { s.pins with thermtrip := true } ∧ SameMemories s t ∧ Enduring s t)
      ∧ (∃ t, exec (.supplyRailChange r false) s = .next t ∧ r ∈ t.pins.badRails ∧ SameMemories s t ∧ Enduring s t
        ∧ (s.pins.perst = false → t.pins.spoiled = true))
      ∧ (∃ t, exec (.supplyRailChange r true) s = .next t ∧ r ∉ t.pins.badRails ∧ t.pins.spoiled = s.pins.spoiled
        ∧ SameMemories s t ∧ Enduring s t))

/-- BOOT_ROM: with the host-boot strap high the package waits for a host image; else the first boot slot whose copy passes every check
runs, with its slot, SVN and version shown; when none does, the package waits for a host image. HOSTLOAD and FW_BRINGUP: an image from the
host is checked like a copy and runs from HOST_WAIT only; firmware brings the package to READY, with each panel's firmware in its local
SRAM, its four harts running, every domain ON and the repaired lanes shown (R17, R419, R426), or to FAILED with the code of what failed.
HOST_WAIT, READY and FAILED set BLK_IRQ_CAUSE bit 0 of the BOOT block. What the bytes of a panel's firmware are is free (log entry 23). -/
def Obligations.FirmwareBootsFromAGoodImage : Prop :=
  (∀ s : State, Live s = true → s.boot.stage = .rom →
      (s.pins.straps.hostBoot = true → ∃ t, exec .bootRom s = .next t ∧ t.boot.stage = .hostWait ∧ t.regBit .boot 0x20 0 = true ∧ SameMemories s t)
      ∧ (s.pins.straps.hostBoot = false →
        ∃ t, exec .bootRom s = .next t ∧ SameMemories s t ∧ match (List.range 4).find? (fun k => imgCheck s (slotRead s k) == 0) with
          | some k => t.boot.stage = .fwStart ∧ t.boot.source = k ∧ t.boot.svn = imgNat (slotRead s k) 10 1 ∧ t.boot.version = imgNat (slotRead s k) 8 2
          | none => t.boot.stage = .hostWait ∧ t.boot.code = imgCheck s (slotRead s 3) ∧ t.regBit .boot 0x20 0 = true))
  ∧ (∀ s : State, Live s = true →
      (s.boot.stage = .hostWait →
        ∃ t, exec .hostload s = .next t ∧ SameMemories s t
          ∧ (if imgCheck s (sramRead s) = 0 then t.boot.stage = .fwStart ∧ t.boot.source = 4
            else t.boot = { s.boot with code := imgCheck s (sramRead s) }))
      ∧ (s.boot.stage ≠ .hostWait → ∃ t, exec .hostload s = .next t ∧ t.boot = s.boot ∧ SameMemories s t)
      ∧ (s.boot.stage = .fwStart →
        (∀ repaired : FMap Nat, FMap.wf 0 repaired = true →
          ∃ t, exec (.fwBringup (.ok repaired)) s = .next t ∧ t.boot = { s.boot with stage := .ready } ∧ t.mgmt.readyAt = some s.time.toNat
            ∧ t.regBit .boot 0x20 0 = true ∧ t.hbm = s.hbm ∧ t.stashMem = s.stashMem ∧ t.hostMem = s.hostMem
            ∧ (∀ p i, p < s.fuses.panels → i < 12 → domOn t p i = true)
            ∧ (∀ p h, p < s.fuses.panels → h < 4 → FMap.look 0 t.harts (4 * p + h) = 1)
            ∧ (∀ p i, i < 3 → (t.d2d p i).repaired = FMap.look 0 repaired (3 * p + i) % 256)
            ∧ (∀ p i, p < s.fuses.panels → i < 3 → (d2dNumber s p i).isSome = true → (t.d2d p i).locked = true)
            ∧ (∀ a, Mem.byte t.sram a = if a < 2 ^ 21 * s.fuses.panels then
                (Config.panelFirmware s.boot.image (a / 2 ^ 21))[a % 2 ^ 21]?.getD (Mem.byte s.sram a) else Mem.byte s.sram a))
        ∧ (∃ t, exec (.fwBringup .hbmTrain) s = .next t ∧ t.boot = { s.boot with stage := .failed, code := 0x10 } ∧ t.regBit .boot 0x20 0 = true)
        ∧ (∃ t, exec (.fwBringup .stashMount) s = .next t ∧ t.boot = { s.boot with stage := .failed, code := 0x11 } ∧ t.regBit .boot 0x20 0 = true)
        ∧ (∃ t, exec (.fwBringup .selfTest) s = .next t ∧ t.boot = { s.boot with stage := .failed, code := 0x12 } ∧ t.regBit .boot 0x20 0 = true)))

/-- TOPO_APPLY: a table that fails a check changes no link and shows the entry and the code; a good one is applied and raises
BLK_IRQ_CAUSE bit 1 of the BOOT block: the registers PLY_CTRL and PLY_PEER_ID of each link that it names take the entry's values (R427), the
link trains when the entry enables it and is DISABLED when not, but a link that is UP with the same values is left alone (R428); the
registers and the state of a link that it does not name stay. In any stage but READY the write does nothing and is counted. -/
def Obligations.TopoApplyTakesAWholeTableOrNothing : Prop :=
  ∀ s : State, Live s = true →
    (s.boot.stage ≠ .ready → ∃ t, exec .topoApply s = .next t ∧ t.links = s.links ∧ t.boot = s.boot ∧ t.regs = s.regs ∧ SameMemories s t)
    ∧ (s.boot.stage = .ready →
      let a := s.reg64 .boot 0x50
      let es := (List.range (Nat.min (Mem.nat s.hbm (a + 8) 4) 32)).map (topoEntry s a)
      (∀ i c, topoRefusal s a es = some (i, c) →
        ∃ t, exec .topoApply s = .next t ∧ t.boot = { s.boot with topoErr := c, topoEntry := i } ∧ t.links = s.links
          ∧ t.regBit .boot 0x14 1 = true ∧ SameMemories s t)
      ∧ (topoRefusal s a es = none →
        ∃ t, exec .topoApply s = .next t ∧ t.boot = { s.boot with topoErr := 0, topoEntry := 0 } ∧ t.regBit .boot 0x20 1 = true ∧ SameMemories s t
          ∧ (∀ e ∈ es, writable s (plyBlk e.link) = true →
              let b := plyBlk e.link
              let en := bitOf e.flags 0
              let kept : Bool := decide ((s.link e.link).st = .up ∧ s.reg b 0x40 = e.ctrl en ∧ s.reg64 b 0x48 = e.peer)
              t.regBit b 0x40 0 = en ∧ t.regBit b 0x40 3 = bitOf e.flags 1 ∧ bits (t.regN b 0x40) 16 7 = e.ack ∧ bits (t.regN b 0x40) 24 8 = e.grace
              ∧ t.reg64 b 0x48 = e.peer ∧ (t.link e.link).st = (if kept then .up else if en then .training else .disabled))
          ∧ (∀ l, l < 32 → (∀ e ∈ es, e.link ≠ l) → (t.link l).st = (s.link l).st
              ∧ ∀ off ∈ [0x40, 0x48, 0x4C], t.reg (plyBlk l) off = s.reg (plyBlk l) off)))

/-- LOAD_BEGIN and LOAD_DONE: a load starts only in an idle package; it empties the row counters, regions, tags and plane sets of every core
and zeroes the registers that the loader sets, and clears FLT_FIRST and the in-service test's table and result. LOAD_DONE shows the code of
the first check that fails, and LOADED only when none does. BOOT_START: a loaded package whose cast-on is IDLE arrives at its node, with its
GOs due in the next plan clock period; else the write is an error and starts nothing. -/
def Obligations.ALoadEndsCheckedAndAStartArrives : Prop :=
  (∀ s : State, Live s = true →
      (allIdle s = true → s.castSt ≠ .arrived → s.castSt ≠ .released → s.bind = none →
        ∃ t, exec .loadBegin s = .next t ∧ t.boot = { s.boot with loaded := false, loading := true } ∧ t.shared = []
          ∧ (∀ k ∈ allCores s, (t.core k).counters = [] ∧ (t.core k).regions = [] ∧ (t.core k).tags = [] ∧ (t.core k).set0 = none
            ∧ (t.core k).set1 = none ∧ (t.core k).bank.isOpen = false ∧ (t.core k).istSlice = 0 ∧ (t.core k).stream.waiting = none
            ∧ ∀ off ∈ [0x48, 0x90, 0x94, 0x98, 0x9C], t.regN (strBlk k) off = 0)
          ∧ t.flt.first = none ∧ t.flt.istTable = [] ∧ t.flt.istOpen = [] ∧ t.regN .flt 0x74 = 0 ∧ SameMemories s t)
      ∧ (allIdle s = false → ∃ t, exec .loadBegin s = .next t ∧ t.boot = s.boot ∧ t.cores = s.cores ∧ t.regBit .boot 0x14 0 = true
          ∧ SameMemories s t)
      ∧ (let err := loadErr s (s.reg64 .boot 0x60) (placement s) (usedCores s)
        ∃ t, exec .loadDone s = .next t ∧ t.boot.loading = false ∧ t.boot.err = err ∧ t.boot.loaded = (err == 0)
          ∧ t.regBit .boot 0x20 2 = true ∧ (err ≠ 0 → t.regBit .boot 0x14 0 = true ∧ t.hbm = s.hbm)
          ∧ t.skein = s.skein ∧ t.cores = s.cores ∧ SameStores s t))
  ∧ (∀ s : State, Live s = true →
      (s.boot.loaded = true → s.castSt = .idle → s.bind = none →
        ∃ t, exec .bootStart s = .next t ∧ t.boot.startPending = true ∧ (t.castSt = .arrived ∨ t.castSt = .failed) ∧ SameMemories s t)
      ∧ (s.boot.loaded = false ∨ s.castSt ≠ .idle →
        ∃ t, exec .bootStart s = .next t ∧ t.boot = s.boot ∧ t.castSt = s.castSt ∧ t.regBit .boot 0x14 0 = true ∧ SameMemories s t))

/-! ## Holds -/

/-- HOLD_FREEZE, LATE_ITEM_ARRIVE and RESUME_BROADCAST: at the freeze tick the package freezes with TIME and PTC noted (R92); an item is
marked once its condition is true, and not before (R94); when every item has arrived and no refresh is due, the broadcast goes out (R95). The
item of a late count reads it once its producers are complete, and its REPEAT passes its check (the model's reading, log entry 136).
HOLD_RESUME, HOLD_REFRESH, HOLD_PERIODIC_REFRESH and HOLD_WATCHDOG_EXPIRE: 24 pt after the broadcast the hold ends, and one that waits behind
it takes its place; a long hold of a planned stack gets its refreshes, refresh n in the first period that begins 1,950 n ns after the freeze
or later (R100, R501); the watchdog acts once a hold (R101). -/
def Obligations.AHoldFreezesWaitsRefreshesAndEnds : Prop :=
  (∀ (s : State) (h : Hold), Live s = true → s.hold = some h →
      (h.frozen = false → h.freezeAt ≤ s.wall →
        ∃ t, exec .holdFreeze s = .next t ∧ t.hold = some { h with frozen := true, time := s.time, ptc := s.ptc } ∧ ptcRuns t = false
          ∧ t.ptc = s.ptc ∧ t.cores = s.cores ∧ SameMemories s t)
      ∧ (h.frozen = false → s.wall < h.freezeAt → ∃ t, exec .holdFreeze s = .next t ∧ t.hold = some h)
      ∧ (∀ n it, (h.reqs.flatMap fun r => r.items.map (·.1))[n]? = some it → (∀ k, it ≠ .latch k) →
        let marked (x : Hold) : Hold := if itemArrived s it then x.mark fun _ j => decide (j = it) else x
        ∃ t, exec (.lateItemArrive n) s = .next t ∧ t.hold = some (marked h) ∧ t.nextHold = s.nextHold.map marked ∧ t.cores = s.cores
          ∧ SameMemories s t)
      ∧ (∀ (n k : Nat) (w : Fetched), (h.reqs.flatMap fun r => r.items.map (·.1))[n]? = some (.latch k) →
        let st := (s.core k).stream
        let tr := st.tr
        let eff := resolvedAll s k w.desc (indices tr).1 (indices tr).2.1
        let count := Mem.nat s.skein (skAddr k (eff.getD 1 0)) 4 % 2 ^ 24
        st.old = none → tr.fetch.window.head? = some w → tr.requested = true → tr.timed = true → isIndirect w.desc = true →
        (∀ p ∈ producers s (s.core k) w.desc (frameBase tr + dw w.desc 1), itemArrived s (.producer k p.id) = true) →
        s.skErr = [] → s.landed = [] → noInjection s k → badNext s k w (frameBase tr + dw w.desc 1) count = none →
        ∃ t, exec (.lateItemArrive n) s = .next t ∧ (t.core k).stream.tr.requested = false
          ∧ (∃ q, (t.core k).stream.checked = st.checked ++ [q] ∧ q.desc = w.desc ∧ q.tick = frameBase tr + dw w.desc 1)
          ∧ (count ≠ 0 → ∃ l, (t.core k).stream.tr.loops = l :: tr.loops ∧ l.count = count ∧ l.first = w.addr + 64 ∧ l.iter = 0)
          ∧ (∀ j, j ≠ k → t.core j = s.core j) ∧ SameMemories s t)
      ∧ (h.frozen = true → h.ready = true → h.broadcast = none → refreshing s h = false → refreshNeeded s h = false →
        ∃ t, exec .resumeBroadcast s = .next t ∧ t.hold = some { h with broadcast := some s.wall } ∧ t.cores = s.cores
          ∧ SameMemories s t)
      ∧ (h.ready = false ∨ refreshing s h = true ∨ refreshNeeded s h = true →
        ∃ t, exec .resumeBroadcast s = .next t ∧ t.hold = some h))
  ∧ (∀ (s : State) (h : Hold), Live s = true → s.hold = some h → h.frozen = true →
      let planned1 (t : State) : Prop := ∀ p st, p < s.fuses.panels → st < 3 → planned s p st = true →
        s.wall + nsToPeriods s (refreshNs s) ≤ (t.hbmStack p st).refreshUntil
      (∀ w, h.broadcast = some w → w + 24 ≤ s.wall →
        ∃ t, exec .holdResume s = .next t ∧ t.hold = s.nextHold ∧ t.nextHold = none ∧ t.ptc = s.ptc ∧ t.cores = s.cores
          ∧ (s.regBit .hold 0x40 2 = true → t.holdSeq = (s.holdSeq + 1) % 2 ^ 32
              ∧ FMap.look [] t.holdLog (s.holdSeq % 1024) = holdRecord h s.holdSeq h.time.toNat h.ptc.toNat h.ticks)
          ∧ (∀ c, bitOf h.causes c = true → c < 8 → t.reg .hold (0x80 + 4 * c) = satInc (s.reg .hold (0x80 + 4 * c)))
          ∧ SameMemories s t)
      ∧ (refreshNeeded s h = true →
        ∃ t, exec .holdRefresh s = .next t ∧ t.cores = s.cores ∧ SameMemories s t ∧ planned1 t
          ∧ t.hold = some { h with finalDone := true, refreshUntil := some (s.wall + nsToPeriods s (refreshNs s)) })
      ∧ (anyPlanned s = true → nsToPeriods s ((h.refreshes + 1) * 1950) ≤ h.ticks →
        ∃ t, exec .holdPeriodicRefresh s = .next t ∧ t.cores = s.cores ∧ SameMemories s t ∧ planned1 t
          ∧ t.hold = some { h with refreshes := h.refreshes + 1, refreshUntil := some (s.wall + nsToPeriods s (refreshNs s)) })
      ∧ (h.watched = false → s.regN .hold 0x50 % 2 ^ 16 ≠ 0 → s.regN .hold 0x50 % 2 ^ 16 * 1000 ≤ s.time.toNat - h.time.toNat →
        ∃ t, exec .holdWatchdogExpire s = .next t ∧ t.hold = some { h with watched := true } ∧ t.regBit .hold 0x20 1 = true
          ∧ (s.regBit .flt 0x40 3 = true → bitOf h.pendingCauses 6 = false → t.regBit .flt 0x14 1 = true)
          ∧ t.cores = s.cores ∧ SameMemories s t))

/-- DEBUG_HOLD and DEBUG_RELEASE: with no hold, a DEBUG request of unit 2 of panel 0 starts one that freezes 24 pt later; its release
marks the debug items raised in earlier ticks, and no other. PLAN_SNAP_TAKE copies PTC, TIME and the STEP of virtual core 0 at one moment.
-/
def Obligations.DebugHoldsAndTheSnapshot : Prop :=
  ∀ s : State, Live s = true →
    (s.flt.stopped = false → s.hold = none →
      ∃ t, exec .debugHold s = .next t ∧ SameMemories s t ∧ t.cores = s.cores ∧ t.regBit .hold 0x48 6 = true
        ∧ t.hold = some { reqs := [⟨6, 0, true, 2, s.ptc.toNat, s.wall, [(.debug, false)]⟩], freezeAt := s.wall + 24 })
    ∧ (s.flt.stopped = true → ∃ t, exec .debugHold s = .next t ∧ t.hold = s.hold ∧ t.regs = s.regs ∧ SameMemories s t)
    ∧ (let mark (x : Hold) : Hold := x.mark fun r i => decide (i = .debug) && decide (r.seq < s.wall)
      ∃ t, exec .debugRelease s = .next t ∧ SameMemories s t ∧ t.cores = s.cores ∧ t.hold = s.hold.map mark ∧ t.nextHold = s.nextHold.map mark)
    ∧ (∃ t, exec .planSnapTake s = .next t ∧ SameMemories s t ∧ t.cores = s.cores
        ∧ t.reg64 .plan 0x48 = s.ptc.toNat ∧ t.reg64 .plan 0x50 = s.time.toNat
        ∧ (∀ k, physOf s 0 = some k → t.reg64 .plan 0x58 = (s.core k).step.toNat)
        ∧ (∀ b off, (∀ o ∈ [0x48, 0x4C, 0x50, 0x54, 0x58, 0x5C], b.base + off ≠ Blk.plan.base + o) → t.reg b off = s.reg b off))

/-! ## Streams -/

/-- STR_GO (R69): a launch less than 64 ticks ahead faults the stream as LAUNCH_LATE and is discarded; any other is accepted with its chart,
start tick and TIMED bit, and an idle or faulted stream becomes ARMED, a faulted one with its plane sets EMPTY and its bank CLOSED (R81). A
GO while CAST_STATE is ARRIVED is accepted unchecked (R281). A stopped package takes no launch (R460). SEGMENT_START (R68, R70): 32 ticks
before its start tick an accepted launch takes the stream to RUNNING, with the launch's chart next and no loop open; a running segment
stays beside it until the start tick; a first descriptor of a timed segment that is not there asks for a hold (R52). At the start tick the
tag slots empty, the count of issued descriptors is 0, and what the replaced segment has not issued is discarded (R62, R70, R83). -/
def Obligations.ALaunchIsAcceptedAndItsSegmentStarts : Prop :=
  (∀ (s : State) (c : CoreId) (k : Nat) (timed : Bool), Live s = true → coreOf s c = some k →
      let b := strBlk k
      let start := s.reg64 b 0x98
      (writable s b = true → s.flt.stopped = false →
        (s.castSt ≠ .arrived → start < s.ptc.toNat + 64 →
          ∃ t, exec (.strGo c timed) s = .next t ∧ CoreFrame s t k ∧ (t.core k).stream.st = .faulted ∧ (t.core k).stream.launch = none
            ∧ (t.core k).stream.tr.pos = none ∧ (t.core k).stream.checked = (s.core k).stream.checked ∧ t.regBit b 0x14 8 = true
            ∧ t.regN b 0x4C = 15 * 2 ^ 24 + 8 * 2 ^ 12 + 8 ∧ t.reg64 b 0x50 = chartAddr s k ∧ t.reg64 b 0x58 = s.ptc.toNat)
        ∧ (s.castSt = .arrived ∨ s.ptc.toNat + 64 ≤ start →
          ∃ t, exec (.strGo c timed) s = .next t ∧ CoreFrame s t k ∧ t.regN b 0xA0 = 2 * b2n timed ∧ t.reg b 0x4C = resetWord b 0x4C
            ∧ t.core k = (let x := if (s.core k).stream.st = .faulted then clearArray (s.core k) else s.core k
                { x with stream := { x.stream with
                  launch := some ⟨chartAddr s k, start, timed, s.castSt == .arrived⟩, st := if x.stream.st = .running then .running else .armed
                  waiting := none, nextFetch := { next := some (chartAddr s k) } } })))
      ∧ (writable s b = false ∨ s.flt.stopped = true →
        ∃ t, exec (.strGo c timed) s = .next t ∧ t.cores = s.cores ∧ t.regs = s.regs ∧ SameMemories s t))
  ∧ (∀ (s : State) (c : CoreId) (k : Nat) (l : Launch), Live s = true → coreOf s c = some k → (s.core k).stream.launch = some l →
      l.unchecked = false → ptcRuns s = true → l.start ≤ s.ptc.toNat + 32 → s.ptc.toNat < l.start →
      (s.core k).stream.st = .armed ∨ (s.core k).stream.st = .running →
      let st := (s.core k).stream
      let next : Stream := { st with
        st := .running, segStart := l.start, startDue := some l.start, launch := none, nextFetch := {}
        tr := { seg := st.tr.seg + 1, timed := l.timed, pos := some l.chart, top := l.start, fetch := st.nextFetch }
        old := if st.tr.pos.isSome then some st.tr else none }
      (hbmAddrOk s l.chart = true → l.timed = false ∨ headReady s st.nextFetch = true →
        ∃ t, exec (.segmentStart c) s = .next t ∧ CoreFrame s t k ∧ t.core k = { s.core k with stream := next }
          ∧ t.reg64 (strBlk k) 0xA8 = l.start % 2 ^ 64)
      ∧ (hbmAddrOk s l.chart = true → l.timed = true → headReady s st.nextFetch = false → s.hold = none → s.flt.stopped = false →
          st.tr.slipPending = false → (∀ d ∈ st.nextFetch.window.head?, d.tick = none) →
        ∃ t, exec (.segmentStart c) s = .next t ∧ (∀ j, j ≠ k → t.core j = s.core j) ∧ SameMemories s t
          ∧ t.core k = { s.core k with stream := { next with tr := { next.tr with slipPending := true } } }
          ∧ t.hold = some { reqs := [⟨0, k / 288, false, k % 288, s.ptc.toNat, s.wall, [(.fetch k, false)]⟩], freezeAt := s.wall + 24 }
          ∧ t.reg (strBlk k) 0x78 = satInc (s.reg (strBlk k) 0x78))
      ∧ (hbmAddrOk s l.chart = false →
        ∃ t, exec (.segmentStart c) s = .next t ∧ CoreFrame s t k ∧ (t.core k).stream.st = .faulted ∧ t.regBit (strBlk k) 0x14 4 = true))
  ∧ (∀ (s : State) (k S : Nat), s.pending = [] → s.pins.perst = false → (s.core k).stream.startDue = some S → planMoves s = true →
      S ≤ (s.ptc + 1).toNat →
      ∃ t, step s = .next t ∧ (t.core k).tags = [] ∧ (t.core k).stream.issued = 0 ∧ (t.core k).stream.startDue = none
        ∧ (t.core k).stream.old = none
        ∧ (t.core k).stream.checked = (s.core k).stream.checked.filter fun q => q.seg == (s.core k).stream.tr.seg)

/-- ISSUE_CHECK (R52, R54, R73, R75): the first step that a descriptor fails names the fault of its stream, with its record; one that passes
joins the queue of checked descriptors with its tick, its effective bases and its indices, and the stream order goes on. In a timed segment
its datapaths are occupied from its tick on, and what is late asks for a hold, with the cause of the first late item in order; in an
untimed one it waits for its producers and its counter itself. A descriptor at or beyond the start tick of the next launch is not checked
(R70). That a late indirect count is read when its producers have arrived is the model's choice (log entry 136). -/
def Obligations.AnIssueCheckFaultsOrQueuesTheDescriptor : Prop :=
  ∀ (s : State) (c : CoreId) (k : Nat) (w : Fetched) (ws : List Fetched), Live s = true → coreOf s c = some k →
    let st := (s.core k).stream
    let tr := st.tr
    let b := strBlk k
    let d := w.desc
    let tk := frameBase tr + dw d 1
    tr.fetch.window = w :: ws → st.st = .running → ptcRuns s = true → tr.pos = some w.addr → headReady s tr.fetch = true →
    retest s k = s → oldDue s st = false → st.waiting = none → (tr.timed = true → tr.requested = false) → tk ≤ s.ptc.toNat + 32 →
    let i0 := (indices tr).1
    let i1 := (indices tr).2.1
    let eff := resolvedAll s k d i0 i1
    let prods := producers s (s.core k) d tk
    let base := s.reg64 b 0x60
    let faults : Nat → Nat → Nat → Nat → Nat → Prop := fun code field eng opc addr =>
      ∃ t, exec (.issueCheck c) s = .next t ∧ CoreFrame s t k ∧ (t.core k).stream.st = .faulted ∧ (t.core k).stream.tr.pos = none
        ∧ (t.core k).stream.checked = st.checked ∧ (t.core k).inflight = (s.core k).inflight ∧ t.regBit b 0x14 code = true
        ∧ (s.regN b 0x4C % 256 = 0 → t.regN b 0x4C = field * 2 ^ 24 + opc * 2 ^ 16 + eng * 2 ^ 12 + code ∧ t.reg64 b 0x50 = addr % 2 ^ 64
          ∧ t.reg64 b 0x58 = s.ptc.toNat)
    let fault : Nat → Nat → Prop := fun code field => faults code field (dEng d) (dOpc d) w.addr
    let open_ := ∀ l, st.launch = some l → l.unchecked = true ∨ tk < l.start
    let step2 := faultStep1 s k d w.addr = none ∧ orderOk tr d tk = true
    let outside : Nat × OpField → Bool := fun e => !rangeOk s k e.2 (effBase s k e.2 i0 i1)
    let otherFmt : Nat × OpField → Bool := fun e => e.2.space == 0 && (regionOf (s.core k) e.2.region).fmt != e.2.fmt
    let step3 := step2 ∧ (operandsOf d).find? outside = none ∧ (dReinterp d = true ∨ (operandsOf d).find? otherFmt = none)
    let step4 := step3 ∧ tagMiss (s.core k) d = false
    let step5 := step4 ∧ (tr.timed = true → prods.any Producer.early = false ∧ datapathFree (s.core k) d tk = true) ∧ saMismatch (s.core k) d = none
    let next := after tr d base w.addr tk (dw d 4 % 2 ^ 24)
    let missing := next.2.2.1.isSome && !headReady s { tr.fetch with window := ws }
    let late := prods.filter fun p => p.fixedAt.isNone
    let items := lateItems s k (s.core k).nextOp d late (charge s k d tk true).2 missing
    let queued : List LateItem → Checked := fun needs =>
      ⟨(s.core k).nextOp, tr.seg, d, w.addr, tk, tr.timed, eff, i0, i1, (indices tr).2.2,
        if dEng d = 8 ∧ dOpc d = 1 ∧ dw d 4 % 2 ^ 24 ≠ 0 then tr.loops.length + 1 else tr.loops.length, needs⟩
    let passed : State → List LateItem → Option (Nat × Int) → Prop := fun t needs wait =>
      (∀ j, j ≠ k → t.core j = s.core j) ∧ SameMemories s t
      ∧ t.core k = { (if tr.timed then occupy (s.core k) d tk else s.core k) with nextOp := (s.core k).nextOp + 1, stream := (t.core k).stream }
      ∧ (t.core k).stream.checked = st.checked ++ [queued needs] ∧ (t.core k).stream.st = .running ∧ (t.core k).stream.waiting = wait
      ∧ (t.core k).stream.tr.pos = next.2.2.1 ∧ (t.core k).stream.tr.loops = next.1 ∧ (t.core k).stream.tr.top = next.2.1
      ∧ (t.core k).stream.tr.prevTick = tk ∧ (t.core k).stream.tr.checkedCount = tr.checkedCount + 1
      ∧ (t.core k).stream.tr.fetch.window = (if dEng d = 8 ∧ dOpc d = 3 then [] else ws)
    let request : Nat → List LateItem → Hold := fun cause its =>
      { reqs := [⟨cause, k / 288, false, k % 288, s.ptc.toNat, s.wall, its.map fun i => (i, false)⟩], freezeAt := s.wall + 24 }
    (open_ → ∀ e, faultStep1 s k d w.addr = some e → fault e.1 e.2)
    ∧ (open_ → faultStep1 s k d w.addr = none → orderOk tr d tk = false → fault 3 15)
    ∧ (open_ → step2 → ∀ e, (operandsOf d).find? outside = some e → fault 4 e.1)
    ∧ (open_ → step2 → (operandsOf d).find? outside = none → dReinterp d = false → ∀ e, (operandsOf d).find? otherFmt = some e → fault 5 e.1)
    ∧ (open_ → step3 → tagMiss (s.core k) d = true → fault 6 15)
    ∧ (open_ → step4 → tr.timed = true → prods.any Producer.early = true ∨ datapathFree (s.core k) d tk = false → fault 7 15)
    ∧ (open_ → step4 → (tr.timed = true → prods.any Producer.early = false ∧ datapathFree (s.core k) d tk = true) →
        ∀ code sa, saMismatch (s.core k) d = some (code, sa) → fault code 15 ∧ ∃ t, exec (.issueCheck c) s = .next t ∧ t.regBit (.sa (k / 288)) 0x14 (sa - 1) = true)
    ∧ (open_ → step5 → isIndirect d = false → breakMatch s k d = false →
        ∀ a, next.2.2.1 = some a → hbmAddrOk s a = false → faults 4 15 0 0 a)
    ∧ (open_ → step5 → isIndirect d = false → breakMatch s k d = false → (∀ a, next.2.2.1 = some a → hbmAddrOk s a = true) →
      (tr.timed = true → items = [] →
        ∃ t, exec (.issueCheck c) s = .next t ∧ passed t [] none ∧ t.hold = s.hold ∧ t.nextHold = s.nextHold)
      ∧ (∀ f, tr.timed = true → minOn? (·.1) items = some f → s.hold = none → s.flt.stopped = false →
        ∃ t, exec (.issueCheck c) s = .next t ∧ t.hold = some (request f.2.1 (items.map (·.2.2)))
          ∧ passed t (if s.ptc.toNat + 24 < tk then [] else items.map (·.2.2)) none
          ∧ t.reg b 0x78 = (if f.2.1 = 0 then satInc (s.reg b 0x78) else s.reg b 0x78)
          ∧ (f.2.1 = 0 → f.1 ≠ 7 → t.regN b 0x7C = dTag d)
          ∧ t.hostWaits = (if usesHost d then s.hostWaits ++ [(s.wall, k, (s.core k).nextOp)] else s.hostWaits))
      ∧ (tr.timed = false →
        (waitLate s k d = none →
          ∃ t, exec (.issueCheck c) s = .next t ∧ passed t (prods.map fun p => .producer k p.id) none ∧ t.hold = s.hold)
        ∧ (∀ x, waitLate s k d = some x →
          ∃ t, exec (.issueCheck c) s = .next t ∧ t.hold = s.hold
            ∧ passed t (.counter k x.2.1 x.2.2 :: prods.map fun p => .producer k p.id) (some x.2))))
    ∧ (open_ → step5 → isIndirect d = false → breakMatch s k d = true → tr.requested = false → (∀ a, next.2.2.1 = some a → hbmAddrOk s a = true) →
        (if tr.timed then items = [] else prods = [] ∧ waitLate s k d = none) → s.hold = none → s.flt.stopped = false →
      ∃ t, exec (.issueCheck c) s = .next t ∧ t.hold = some (request 6 [.debug])
        ∧ passed t (if tr.timed ∧ s.ptc.toNat + 24 < tk then [] else [.debug]) none)
    ∧ (open_ → step5 → isIndirect d = true → breakMatch s k d = false → tr.timed = true → prods = [] → s.skErr = [] → injectArmed s k = false →
        s.landed = [] → countMeets s k (eff.getD 1 0) = none →
      let n := leNat (Mem.bytes s.skein (skAddr k (eff.getD 1 0)) 4) % 2 ^ 24
      (∀ a, (after tr d base w.addr tk n).2.2.1 = some a → hbmAddrOk s a = true) →
      ∃ t, exec (.issueCheck c) s = .next t ∧ (t.core k).stream.tr.loops = (after tr d base w.addr tk n).1
        ∧ (t.core k).stream.tr.pos = (after tr d base w.addr tk n).2.2.1 ∧ (t.core k).stream.checked.length = st.checked.length + 1
        ∧ (∀ j, j ≠ k → t.core j = s.core j) ∧ SameMemories s t)
    ∧ (∀ f, open_ → step5 → isIndirect d = true → breakMatch s k d = false → tr.timed = true → late ≠ [] → s.hold = none → s.flt.stopped = false →
        minOn? (·.1) (lateItems s k (s.core k).nextOp d late [] false) = some f →
      ∃ t, exec (.issueCheck c) s = .next t
        ∧ t.hold = some (request f.2.1 ((lateItems s k (s.core k).nextOp d late [] false).map (·.2.2) ++ [.latch k]))
        ∧ (t.core k).stream.checked = st.checked ∧ (t.core k).stream.tr = { tr with requested := true } ∧ SameMemories s t)
    ∧ (∀ l, st.launch = some l → l.unchecked = false → l.start ≤ tk →
        ∃ t, exec (.issueCheck c) s = .next t ∧ t.cores = s.cores ∧ t.hold = s.hold ∧ t.regs = s.regs ∧ SameMemories s t)

/-- The stream controls that have nothing left to do when they issue (R46, R48, R49, R64, R71, R75): NOP, REPEAT, CHAIN, WAIT and BREAK
issue and change nothing else. END, MARK and REGION: END takes the stream out of RUNNING, unless its next segment has started, and notes
STEP and PTC; MARK adds 1 to STEP; REGION redefines one region slot. -/
def Obligations.StreamControlsActWhenTheyIssue : Prop :=
  ∀ (s : State) (c : CoreId) (k : Nat) (q : Checked),
    let done := issuedCore s k q
    (Issues s c k q 8 [0] → Leaves (.nop c) s k done s)
    ∧ (Issues s c k q 8 [1] → Leaves (.repeat_ c) s k done s)
    ∧ (Issues s c k q 8 [2] → Leaves (.chain c) s k done s)
    ∧ (Issues s c k q 8 [4] → Leaves (.wait c) s k done s)
    ∧ (Issues s c k q 8 [7] → Leaves (.break_ c) s k done s)
    ∧ (Issues s c k q 8 [3] → Leaves (.end_ c) s k { done with stream := { done.stream with
        ended := some ((s.core k).step, s.ptc)
        st := if (s.core k).stream.tr.seg = q.seg ∧ (s.core k).stream.st = .running then
            (if (s.core k).stream.launch.isSome then .armed else .idle) else (s.core k).stream.st } } s)
    ∧ (Issues s c k q 8 [6] → Leaves (.mark c) s k { done with step := (s.core k).step + 1 } s)
    ∧ (Issues s c k q 8 [8] → Leaves (.region c) s k { done with
        regions := FMap.put {} (s.core k).regions (dw q.desc 4 % 64) ⟨dw q.desc 6, dw q.desc 7, bits (dw q.desc 4) 8 4⟩ } s)

/-- SIGNAL (R264, R265, R267, R270): its operation reaches its counter in the tick in which it issues. At the end of the tick the
operations come in their order: ADD and SUB work on the exact value and SET replaces it, with the signaller noted as the latest; a sum above
2^31 − 1 or a difference below 0 leaves the value and sets bit 1 or bit 0 of the panel's ROW errors. A stream that waits for the counter is
woken by the value with which the tick ends. -/
def Obligations.ASignalAddsSubtractsOrSets : Prop :=
  (∀ (s : State) (c : CoreId) (k : Nat) (q : Checked), Issues s c k q 8 [5] →
    let w := dw q.desc 4
    Leaves (.signal c) s k (issuedCore s k q) { s with rowOps := s.rowOps ++
      [⟨rowOrder 3 (virtOf s k) 0, k, w % 2 ^ 13, bits w 13 2, BitVec.ofNat 32 (dw q.desc 6), 1, localSrc s k⟩] })
  ∧ (∀ (s : State) (k ctr : Nat), s.pending = [] → s.pins.perst = false → (∀ e ∈ s.cores, e.2.inflight = []) → s.rowSets = [] →
      let same : RowOp → Bool := fun o => bitOf o.ctr 12 == bitOf ctr 12
        && (if bitOf ctr 12 then o.core / 288 == k / 288 && o.ctr % 4096 == ctr % 4096 else o.core == k && o.ctr % 64 == ctr % 64)
      let apply : RowCtr → RowOp → RowCtr := fun r o =>
        let res : Int := match o.op with
          | 0 => r.value.toInt + o.value.toInt
          | 1 => r.value.toInt - o.value.toInt
          | _ => o.value.toInt
        ⟨if (o.op = 0 ∧ 2 ^ 31 ≤ res) ∨ (o.op = 1 ∧ res < 0) then r.value else BitVec.ofInt 32 res, o.kind, o.src⟩
      ∃ t, step s = .next t ∧ counterOf t k ctr = ((sortRowOps s.rowOps).filter same).foldl apply (counterOf s k ctr) ∧ t.rowOps = []
        ∧ (∀ need, (s.core k).stream.waiting = some (ctr, need) → s.rowOps ≠ [] → s.boot.startPending = false →
          (t.core k).stream.waiting = if need ≤ (counterOf t k ctr).value.toInt then none else some (ctr, need))
        ∧ (∀ o ∈ s.rowOps, s.rowOps = [o] →
          (o.op = 0 → 2 ^ 31 ≤ (counterOf s o.core o.ctr).value.toInt + o.value.toInt → t.regBit (.row (o.core / 288)) 0x14 1 = true)
          ∧ (o.op = 1 → (counterOf s o.core o.ctr).value.toInt - o.value.toInt < 0 → t.regBit (.row (o.core / 288)) 0x14 0 = true)))
  ∧ (∀ ops : List RowOp, (sortRowOps ops).Perm ops ∧ (sortRowOps ops).Pairwise fun a b => a.order ≤ b.order)
  ∧ (∀ v w i j, v < 2048 → i < 2 ^ 64 → rowOrder 1 v i < rowOrder 2 w j ∧ rowOrder 2 v i < rowOrder 3 w j ∧ rowOrder 3 v i < rowOrder 4 w j
      ∧ ∀ n, v < w → rowOrder n v i < rowOrder n w j)

/-! ## The vector engine -/

/-- Each operation of the vector engine issues as a fixed-latency one, and what it writes is said of the beats that it has read. ADD, SUB,
MUL and FMA (R188 to R190, R192): each lane is the FP32 result rounded once by the mode in the OPC, or the I32 result modulo 2^32 (FMA is
FP32 only). MIN, MAX, ADDS and SUBS (R190, R192): a NaN in either FP32 lane gives the canonical NaN; the I32 sums saturate. AND, OR, XOR,
SHL and SRA (R192): the bitwise results, and shifts by the five low bits of the second operand. In the ticks of R195 and R500 the engine
reads the beats of its 32-bit operands four per tick and writes its output four per tick. -/
def Obligations.VectorArithmeticAndLogicLaneByLane : Prop :=
  (∀ (s : State) (c : CoreId) (k : Nat) (q : Checked),
      (Issues s c k q 2 [0x01, 0x81] → StartsFixed (.add c) s k q) ∧ (Issues s c k q 2 [0x02, 0x82] → StartsFixed (.sub c) s k q)
      ∧ (Issues s c k q 2 [0x03, 0x83] → StartsFixed (.mul c) s k q) ∧ (Issues s c k q 2 [0x04, 0x84] → StartsFixed (.fma c) s k q)
      ∧ (Issues s c k q 2 [0x05] → StartsFixed (.min c) s k q) ∧ (Issues s c k q 2 [0x06] → StartsFixed (.max c) s k q)
      ∧ (Issues s c k q 2 [0x08] → StartsFixed (.adds c) s k q) ∧ (Issues s c k q 2 [0x09] → StartsFixed (.subs c) s k q)
      ∧ (Issues s c k q 2 [0x0A] → StartsFixed (.and c) s k q) ∧ (Issues s c k q 2 [0x0B] → StartsFixed (.or c) s k q)
      ∧ (Issues s c k q 2 [0x0C] → StartsFixed (.xor c) s k q) ∧ (Issues s c k q 2 [0x0D] → StartsFixed (.shl c) s k q)
      ∧ (Issues s c k q 2 [0x0E] → StartsFixed (.sra c) s k q))
  ∧ (∀ (s : State) (k : Nat) (o : Op), o.eng = 2 →
      let mode := dOpc o.desc / 128
      let gives : List Nat → (Nat → Nat → Nat) → Prop := fun opcs f => dOpc o.desc ∈ opcs → (opResult s k o).out = laneBytes o f
      ((fld o.desc 0).fmt = 0xD →
        gives [0x01, 0x81] (fun a b => fpRound mode ((fpVal a).add (fpVal b)))
        ∧ gives [0x02, 0x82] (fun a b => fpRound mode ((fpVal a).add (fpVal b).minus))
        ∧ gives [0x03, 0x83] (fun a b => fpRound mode ((fpVal a).mul (fpVal b)))
        ∧ (dOpc o.desc ∈ [0x04, 0x84] → (opResult s k o).out = fieldBytes o.desc 2 ((List.range (16 * (fld o.desc 2).extent)).map fun i =>
            fpRound mode (((fpVal ((o.els 0).getD i 0)).mul (fpVal ((o.els 1).getD (i % (o.els 1).length) 0))).add (fpVal ((o.els 2).getD i 0)))))
        ∧ gives [0x05] (fun a b => if fpVal a = .nan ∨ fpVal b = .nan then 0x7FC00000 else if (fpVal a).le (fpVal b) then a else b)
        ∧ gives [0x06] (fun a b => if fpVal a = .nan ∨ fpVal b = .nan then 0x7FC00000 else if (fpVal a).le (fpVal b) then b else a))
      ∧ ((fld o.desc 0).fmt ≠ 0xD →
        gives [0x01] (fun a b => unsigned 32 (signed 32 a + signed 32 b)) ∧ gives [0x02] (fun a b => unsigned 32 (signed 32 a - signed 32 b))
        ∧ gives [0x03] (fun a b => unsigned 32 (signed 32 a * signed 32 b))
        ∧ gives [0x05] (fun a b => if signed 32 a ≤ signed 32 b then a else b) ∧ gives [0x06] (fun a b => if signed 32 a ≤ signed 32 b then b else a)
        ∧ gives [0x08] (fun a b => unsigned 32 (max (-2 ^ 31) (min (2 ^ 31 - 1) (signed 32 a + signed 32 b))))
        ∧ gives [0x09] (fun a b => unsigned 32 (max (-2 ^ 31) (min (2 ^ 31 - 1) (signed 32 a - signed 32 b))))
        ∧ gives [0x0A] (fun a b => a &&& b) ∧ gives [0x0B] (fun a b => a ||| b) ∧ gives [0x0C] (fun a b => a ^^^ b)
        ∧ gives [0x0D] (fun a b => a * 2 ^ (b % 32) % 2 ^ 32) ∧ gives [0x0E] (fun a b => unsigned 32 (signed 32 a / 2 ^ (b % 32)))))
  ∧ (∀ (o : Op) (peek : Nat → List Byte) (j x : Nat), o.eng = 2 → dEng o.desc = 2 → dOpc o.desc < 0x10 ∨ 0x80 ≤ dOpc o.desc →
      fmtBits (fld o.desc 0).fmt = 32 → (fld o.desc 0).extent = (fld o.desc 2).extent → j < (fld o.desc 2).extent →
      ((⟨5, false, slotOf 0 j, o.eff.getD 0 0 + 64 * j⟩ : Access) ∈ accesses o peek x ↔ x = j / 4)
      ∧ ((⟨5, true, j, o.eff.getD 2 0 + 64 * j⟩ : Access) ∈ accesses o peek x ↔ x = veDepth (dOpc o.desc) + j / 4))

/-- The function units RCP, SQRT, RSQRT, EXP2, LOG2, EXP, TANH and SIGMOID (R190, R191): each element of the result is the function of
that element of the source. Away from the special cases the result is the unit's own, which the manual does not print (a free value, log
entry 6), inside the bound of R190 of the exact value; SQRT is exact and rounded once. The special cases of R190 over the FP32 encodings,
whatever the tables hold: reciprocals and roots of zeros and infinities, exponentials at the ends of the range, the logarithm of zero, one
and a negative number, and TANH and SIGMOID at zero and infinity. -/
def Obligations.FunctionUnitsActElementByElement : Prop :=
  (∀ (s : State) (c : CoreId) (k : Nat) (q : Checked),
      (Issues s c k q 2 [0x10] → StartsFixed (.rcp c) s k q) ∧ (Issues s c k q 2 [0x11] → StartsFixed (.sqrt c) s k q)
      ∧ (Issues s c k q 2 [0x12] → StartsFixed (.rsqrt c) s k q) ∧ (Issues s c k q 2 [0x13] → StartsFixed (.exp2 c) s k q)
      ∧ (Issues s c k q 2 [0x14] → StartsFixed (.log2 c) s k q) ∧ (Issues s c k q 2 [0x15] → StartsFixed (.exp c) s k q)
      ∧ (Issues s c k q 2 [0x16] → StartsFixed (.tanh c) s k q) ∧ (Issues s c k q 2 [0x17] → StartsFixed (.sigmoid c) s k q))
  ∧ Gives 2 [0x10, 0x11, 0x12, 0x13, 0x14, 0x15, 0x16, 0x17] (fun _ _ o =>
      fieldBytes o.desc 1 ((o.els 0).map (fpFunc (dOpc o.desc) (bits (dw o.desc 12) 16 2))))
  ∧ (∀ (opc mode a : Nat) (m e : Int), fpVal a = .fin m e →
      (opc ∈ [0x10, 0x15, 0x16, 0x17] ∨ (opc = 0x12 ∧ 0 ≤ m) ∨ (opc = 0x14 ∧ 0 ≤ m ∧ a ≠ 0x3F800000)
        ∨ (opc = 0x13 ∧ leDyadic (128, 0) (m, e) = false ∧ leDyadic (-149, 0) (m, e) = true) →
        inBound opc (exactFunc opc m e) (fpFunc opc mode a) = true
          ∨ fpFunc opc mode a = fpRound 0 (XVal.ofDyadic (exactFunc opc m e) (-400)))
      ∧ (0 ≤ m → fpFunc 0x11 mode a = fpRound mode (sqrtX m.toNat e))
      ∧ (leDyadic (128, 0) (m, e) = true → fpFunc 0x13 mode a = 0x7F800000)
      ∧ (leDyadic (128, 0) (m, e) = false → leDyadic (-149, 0) (m, e) = false → fpFunc 0x13 mode a = 0))
  ∧ (∀ mode : Nat,
      fpFunc 0x10 mode 0 = 0x7F800000 ∧ fpFunc 0x10 mode 0x80000000 = 0xFF800000 ∧ fpFunc 0x10 mode 0x7F800000 = 0
      ∧ fpFunc 0x10 mode 0xFF800000 = 0x80000000 ∧ fpFunc 0x11 mode 0x80000000 = 0x80000000 ∧ fpFunc 0x11 mode 0x7F800000 = 0x7F800000
      ∧ fpFunc 0x11 mode 0xFF800000 = 0x7FC00000 ∧ fpFunc 0x12 mode 0 = 0x7F800000 ∧ fpFunc 0x12 mode 0x80000000 = 0xFF800000
      ∧ fpFunc 0x12 mode 0xBF800000 = 0x7FC00000 ∧ fpFunc 0x13 mode 0xFF800000 = 0 ∧ fpFunc 0x13 mode 0 = 0x3F800000
      ∧ fpFunc 0x13 mode 0x43000000 = 0x7F800000 ∧ fpFunc 0x14 mode 0 = 0xFF800000 ∧ fpFunc 0x14 mode 0x3F800000 = 0
      ∧ fpFunc 0x14 mode 0xBF800000 = 0x7FC00000 ∧ fpFunc 0x15 mode 0xFF800000 = 0 ∧ fpFunc 0x16 mode 0x7F800000 = 0x3F800000
      ∧ fpFunc 0x16 mode 0x80000000 = 0x80000000 ∧ fpFunc 0x17 mode 0 = 0x3F000000 ∧ fpFunc 0x17 mode 0xFF800000 = 0
      ∧ (∀ op ∈ [0x10, 0x11, 0x12, 0x13, 0x14, 0x15, 0x16, 0x17], fpFunc op mode 0x7FC00001 = 0x7FC00000))

/-- CVT, RSUM and RMAX (R136 to R138, R193, R194): every element converted once to the destination's format, with its own draw where the mode
is stochastic; each group of GROUP elements summed exactly and rounded once, or its maximum. Numeric events (R118, R134, R142, R145 to
R147): an event sets its core's sticky bit; where FLAGS.SATFAULT or NUM_CTRL makes it a fault, it sets its bit of the panel's NUM errors,
and NUM_FAULT records the first with its core and PTC; where they do not, NUM records nothing. -/
def Obligations.ConversionsAndReductions : Prop :=
  (∀ (s : State) (c : CoreId) (k : Nat) (q : Checked),
      (Issues s c k q 2 [0x20] → StartsFixed (.cvt c) s k q) ∧ (Issues s c k q 2 [0x21] → StartsFixed (.rsum c) s k q)
      ∧ (Issues s c k q 2 [0x22] → StartsFixed (.rmax c) s k q))
  ∧ Gives 2 [0x20] (fun s _ o =>
      let f0 := fld o.desc 0
      let f1 := fld o.desc 1
      let n := 512 * f1.extent / fmtBits f1.fmt
      fieldBytes o.desc 1 (convertAll s o f1.fmt (· / 64) (elementTick 4 o.desc f1) 0 (((o.els 0).take n).map (decodeEl f0.fmt (lsqOf o.desc)))).1)
  ∧ (∀ (s : State) (o : Op) (fmt : Nat) (rd wr : Nat → Nat) (i : Nat) (xs : List (XVal × Bool)),
      let d := o.desc
      (convertAll s o fmt rd wr i xs).1 = (xs.zipIdx i).map fun e =>
        (encodeEl fmt (lsqOf d) (rModeOf d) (if rModeOf d = 2 then draw s o e.2 else 0) (noSatOf d) e.1.1).bits)
  ∧ Gives 2 [0x21] (fun _ _ o =>
      fieldBytes o.desc 1 ((groups (dw o.desc 15) (16 * (fld o.desc 1).extent) (o.els 0)).map (groupSum (rModeOf o.desc))))
  ∧ Gives 2 [0x22] (fun _ _ o =>
      fieldBytes o.desc 1 ((groups (dw o.desc 15) (16 * (fld o.desc 1).extent) (o.els 0)).map (groupMax ((fld o.desc 0).fmt = 0xD))))
  ∧ (∀ (s : State) (k code n : Nat) (o : Op), k < 2304 → 1 ≤ code → code ≤ 3 → 0 < n →
      let b := Blk.num (k / 288)
      let t := fireEv k o s (.num code n)
      t.regBit b (0x40 + 0x40 * code + 4 * (k % 288 / 32)) (k % 288 % 32) = true
      ∧ (numFaultOn s k o.desc code = true → t.regBit b 0x14 (code - 1) = true
        ∧ (s.regBit b 0x44 31 = false → t.regN b 0x44 = 2 ^ 31 + code * 2 ^ 16 + k % 288 ∧ t.reg64 b 0x48 = s.ptc.toNat))
      ∧ (numFaultOn s k o.desc code = false → t.reg b 0x14 = s.reg b 0x14 ∧ t.reg b 0x44 = s.reg b 0x44))

/-! ## Shaper, gather/scatter, sums, sampler, stitch array -/

/-- TRANSPOSE and BLOCKPERM (R198): row and column change places; each block of 16 elements is permuted by the pattern. RESHAPE moves
whole rows of beats, two per tick. PACK_W, PACK_A and UNPACK (R124 to R129, R199): elements to the plane form of a weight or activation
tile with its block scales, given or found, and back. -/
def Obligations.TheShaperMovesPacksAndUnpacks : Prop :=
  (∀ (s : State) (c : CoreId) (k : Nat) (q : Checked),
      (Issues s c k q 3 [0x01] → StartsFixed (.transpose c) s k q) ∧ (Issues s c k q 3 [0x02] → StartsFixed (.blockperm c) s k q)
      ∧ (Issues s c k q 3 [0x03] → StartsFixed (.reshape c) s k q)
      ∧ (Issues s c k q 3 [0x10, 0x11, 0x12, 0x13, 0x14] → StartsFixed (.packW c) s k q)
      ∧ (Issues s c k q 3 [0x18] → StartsFixed (.packA c) s k q) ∧ (Issues s c k q 3 [0x20] → StartsFixed (.unpack c) s k q))
  ∧ Gives 3 [0x01] (fun _ _ o =>
      let rows := dw o.desc 12
      let cols := dw o.desc 13
      fieldBytes o.desc 1 ((List.range (rows * cols)).map fun j => (o.els 0).getD (j % rows * cols + j / rows) 0))
  ∧ Gives 3 [0x02] (fun _ _ o =>
      fieldBytes o.desc 1 ((List.range (o.els 0).length).map fun i =>
        (o.els 0).getD (16 * (i / 16) + bits (dw o.desc 14 + 2 ^ 32 * dw o.desc 15) (4 * (i % 16)) 4) 0))
  ∧ Gives 3 [0x03] (fun _ _ o => o.bytes 0 (dw o.desc 12 * dw o.desc 13))
  ∧ (∀ (o : Op) (peek : Nat → List Byte) (j x : Nat), o.eng = 3 → dEng o.desc = 3 → dOpc o.desc = 3 →
      let len := dw o.desc 13
      j < dw o.desc 12 * len → j < 2 ^ 24 →
      ((⟨6, false, slotOf 0 j, o.eff.getD 0 0 + 64 * (dw o.desc 14 * (j / len) + j % len)⟩ : Access) ∈ accesses o peek x ↔ x = j / 2)
      ∧ ((⟨6, true, j, o.eff.getD 1 0 + 64 * (dw o.desc 15 * (j / len) + j % len)⟩ : Access) ∈ accesses o peek x ↔ x = 16 + j / 2))
  ∧ Gives 3 [0x10, 0x11, 0x12, 0x13, 0x14] (fun _ _ o =>
      (packWeights (fld o.desc 0).fmt (dOpc o.desc - 0x10) (o.els 0).toArray (if (fld o.desc 1).use = 0 then none else some (o.els 1).toArray)).1)
  ∧ Gives 3 [0x18] (fun _ _ o =>
      (packActs (fld o.desc 0).fmt (o.els 0).toArray (if (fld o.desc 1).use = 0 then none else some (o.els 1).toArray)).1)
  ∧ Gives 3 [0x20] (fun s _ o =>
      let f0 := fld o.desc 0
      let f1 := fld o.desc 1
      let tile := (o.bytes 0 f0.extent).toArray
      let vals := if bitOf (dw o.desc 12) 31 then unpackActs f0.fmt tile else unpackWeights f0.fmt (bits (dw o.desc 12) 8 3) tile
      fieldBytes o.desc 1 (convertAll s o f1.fmt (fun i => planeByte 1 (i / 128) (i % 128) / 128) (elementTick 2 o.desc f1) 0 vals).1)

/-- GATHER, SCATTER and MASK (R202, R203). GATHER: entry j of its list stands for rows of r beats of the output; a row is read from the
table at the entry's place, a skipped or bad entry reads nothing and leaves zeros. SCATTER: row j of the source goes to the entry's place
in the table, and a skipped or bad entry writes nothing. Both move two beats per tick (R204, R500), and each bad entry is GS_INDEX when it
is read, with its position (R221). MASK: scores beyond the length of their row become minus infinity. -/
def Obligations.GatherScatterAndMask : Prop :=
  (∀ (s : State) (c : CoreId) (k : Nat) (q : Checked),
      (Issues s c k q 4 [1] → StartsFixed (.gather c) s k q) ∧ (Issues s c k q 4 [2] → StartsFixed (.scatter c) s k q)
      ∧ (Issues s c k q 4 [3] → StartsFixed (.mask c) s k q))
  ∧ Gives 4 [1] (fun _ _ o => o.bytes 1 (fld o.desc 2).extent)
  ∧ Gives 4 [2] (fun _ _ o => o.bytes 1 (fld o.desc 1).extent)
  ∧ (∀ (o : Op) (peek : Nat → List Byte) (j i x : Nat), o.eng = 4 → dEng o.desc = 4 →
      let n := 16 * (fld o.desc 0).extent
      j < n →
      (dOpc o.desc = 1 →
        let r := (fld o.desc 2).extent / n
        i < r →
        (∀ e, o.entry peek ((fld o.desc 1).extent / r) j = .row e →
          ((⟨7, false, slotOf 1 (r * j + i), o.eff.getD 1 0 + 64 * (r * e + i)⟩ : Access) ∈ accesses o peek x
            ↔ x = ((fld o.desc 0).extent + (r * j + i)) / 2))
        ∧ ((∀ e, o.entry peek ((fld o.desc 1).extent / r) j ≠ .row e) → ∀ b, (⟨7, false, slotOf 1 (r * j + i), b⟩ : Access) ∉ accesses o peek x))
      ∧ (dOpc o.desc = 2 →
        let r := (fld o.desc 1).extent / n
        i < r →
        (∀ e, o.entry peek ((fld o.desc 2).extent / r) j = .row e →
          ((⟨7, true, r * j + i, o.eff.getD 2 0 + 64 * (r * e + i)⟩ : Access) ∈ accesses o peek x
            ↔ x = writeTick 2 (n * r) ((opPlan o.desc).dur.getD 0) (r * j + i)))
        ∧ ((∀ e, o.entry peek ((fld o.desc 2).extent / r) j ≠ .row e) → ∀ b, (⟨7, true, r * j + i, b⟩ : Access) ∉ accesses o peek x)))
  ∧ (∀ (s : State) (k : Nat) (o : Op) (j : Nat), o.eng = 4 → dOpc o.desc = 1 →
      let n := 16 * (fld o.desc 0).extent
      j < n → (o.els 0).length = n →
      ((j / 32, Ev.eng 1 j) ∈ (opResult s k o).evs ↔ entryOf ((fld o.desc 1).extent / ((fld o.desc 2).extent / n)) ((o.els 0).getD j 0) = .bad))
  ∧ Gives 4 [3] (fun _ _ o =>
      let l := dw o.desc 12
      let len := max 0 (signed 32 ((o.els 0).getD 0 0))
      fieldBytes o.desc 1 ((List.range (o.els 1).length).zip (o.els 1) |>.map fun e =>
        if ((dw o.desc 15 + e.1 % l : Nat) : Int) ≥ len + (e.1 / l * dw o.desc 14 : Nat) then 0xFF800000 else e.2))

/-- ARGMAX, TOPK, SORT and SAMPLE (R208 to R210): the value order of each row of scores, and the draw of SAMPLE; beyond the length of a
row TOPK writes a free value (log entry 126, the model's choice). CL_ADD (R205, R500): LS128 sums that saturate, each beat read with its
like and written four ticks later. -/
def Obligations.TheSamplerAndTheLocalSum : Prop :=
  (∀ (s : State) (c : CoreId) (k : Nat) (q : Checked),
      (Issues s c k q 6 [1] → StartsFixed (.argmax c) s k q) ∧ (Issues s c k q 6 [2] → StartsFixed (.topk c) s k q)
      ∧ (Issues s c k q 6 [3] → StartsFixed (.sort c) s k q) ∧ (Issues s c k q 6 [4] → StartsFixed (.sample c) s k q)
      ∧ (Issues s c k q 5 [1] → StartsFixed (.clAdd c) s k q))
  ∧ Gives 6 [1] (fun _ _ o => fieldBytes o.desc 1 ((scoreRows o.desc (o.els 0)).map fun r => (valueOrder r).headD 0))
  ∧ Gives 6 [2] (fun _ _ o =>
      let rows := scoreRows o.desc (o.els 0)
      fieldBytes o.desc 1 ((List.range rows.length).flatMap fun r => (List.range (dw o.desc 15)).map fun j =>
        (valueOrder (rows.getD r [])).getD j (Config.topkBeyond r j).toNat))
  ∧ Gives 6 [3] (fun _ _ o => fieldBytes o.desc 1 ((scoreRows o.desc (o.els 0)).flatMap valueOrder))
  ∧ Gives 6 [4] (fun s _ o =>
      let rows := scoreRows o.desc (o.els 0)
      fieldBytes o.desc 1 ((List.range rows.length).map fun r =>
        (sampleRow (rows.getD r []) (dw o.desc 15) (dw o.desc 12 % 2 ^ 16) (draw s o r)).1))
  ∧ (∀ row : List Nat, (valueOrder row).Perm (List.range row.length))
  ∧ Gives 5 [1, 2] (fun _ _ o =>
      elementBytes 128 (fld o.desc 0).extent (((o.els 0).zip (o.els 1)).map fun e => unsigned 128 (clamp128 (signed 128 e.1 + signed 128 e.2)).1))
  ∧ (∀ (o : Op) (peek : Nat → List Byte) (j x : Nat), o.eng = 5 → dEng o.desc = 5 → j < (fld o.desc 0).extent →
      (fld o.desc 1).extent = (fld o.desc 0).extent →
      let p := if dOpc o.desc = 1 then 2 else 1
      ((⟨4, false, slotOf 0 j, o.eff.getD 0 0 + 64 * j⟩ : Access) ∈ accesses o peek x ↔ x = j)
      ∧ ((⟨4, false, slotOf 1 j, o.eff.getD 1 0 + 64 * j⟩ : Access) ∈ accesses o peek x ↔ x = j)
      ∧ ((⟨4, true, j, o.eff.getD p 0 + 64 * j⟩ : Access) ∈ accesses o peek x ↔ x = j + 4))

/-- LOAD_PLANES and MULTIPLY (R149 to R159, R171). A LOAD_PLANES gives its set its tag when it issues; once all its beats are read the set
holds the group's planes and the scales of its tile, row by row with its parity. A MULTIPLY issues with the bank OPEN at its scale, or
CLOSED when it drains; a block adds its sum to its accumulator and keeps the accumulator's exponent, or folds it first where the exponent
differs; a fold adds the accumulator to its L, rounded and saturating, and empties it. At t + N + 3 the bank and, for a drain, the captured
values are those of its passes. A drain writes every beat of its output and no other: with LS128 output the captured values, or with ACC
their sums with what stood there, and with CPLX the parts that the table names, the other parts as they stood; with another format each
value converted once. -/
def Obligations.TheStitchArrayLoadsAndMultiplies : Prop :=
  (∀ (s : State) (c : CoreId) (k : Nat) (q : Checked),
      (Issues s c k q 1 [1] → Leaves (.loadPlanes c) s k
        ((startedCore s k q (fixedOp s k q)).putSet (bitOf (dw q.desc 8) 0) (loadedSet (mkOp s k q (.fixed 0) 0))) s)
      ∧ (Issues s c k q 1 [2] →
        let b := (s.core k).bank
        Leaves (.multiply c) s k { startedCore s k q (fixedOp s k q) with
          bank := { b with isOpen := !bitOf (dw q.desc 12) 2, q := if bitOf (dw q.desc 12) 1 then lsqOf q.desc else b.q } } s))
  ∧ (∀ (m : Mem) (k : Nat) (o : Op),
      let d := o.desc
      let a := o.eff.getD 0 0
      let fmt := (fld d 0).fmt
      let n := if fmt = 0 then 2 else groupPlanes fmt (bits (dw d 8) 8 3) (bits (dw d 8) 4 2)
      dOpc d = 1 → a % 64 = 0 → 128 ≤ loadTicks d → (fmt = 0 → loadTicks d = 128) →
      (∀ x, x < loadTicks d → ∀ e ∈ saAccesses d o.eff x, FMap.look zeroBeat o.seen e.slot = Mem.bytes m (skAddr k e.beat) 64) →
      (loadedSet o).planes = Mem.bytes m (skAddr k (a + 512 + 16384 * bits (dw d 8) 4 2)) (2048 * n)
      ∧ (loadedSet o).scales = Mem.bytes m (skAddr k a) 512 ∧ (loadedSet o).fmt = fmt ∧ (loadedSet o).group = bits (dw d 8) 4 2
      ∧ (loadedSet o).parity = (List.range (128 * n)).map fun x => rowParity (((loadedSet o).planes.drop (16 * x)).take 16))
  ∧ (∀ (r : BankRun) (t slot b n xw xa : Nat) (dot : Int), r.accs.size = 8192 → slot < 16 → b < 4 → n < 128 → xw ≠ 0xFF → xa ≠ 0xFF →
      let i := 512 * slot + 128 * b + n
      let a := r.accs.getD i {}
      (a.acc = 0 ∨ xw + xa = a.x → (r.block t slot b n xw xa dot).accs.getD i {} = ⟨a.acc + dot, xw + xa, ((a.rho + dot) % 7).toNat⟩
        ∧ (r.block t slot b n xw xa dot).ls = r.ls)
      ∧ (a.acc ≠ 0 → xw + xa ≠ a.x → (r.block t slot b n xw xa dot).accs.getD i {} = ⟨dot, xw + xa, (dot % 7).toNat⟩
        ∧ (r.block t slot b n xw xa dot).ls = (r.fold t slot b n).ls))
  ∧ (∀ (r : BankRun) (t slot b n : Nat), r.ls.size = 2048 → slot < 16 → n < 128 →
      let a := r.accs.getD (512 * slot + 128 * b + n) {}
      (r.fold t slot b n).ls.getD (128 * slot + n) 0 = (clamp128 (r.ls.getD (128 * slot + n) 0 + roundInt a.acc ((a.x : Int) - 254 - r.q) 0 0)).1
      ∧ ∀ j, j ≠ 128 * slot + n → (r.fold t slot b n).ls.getD j 0 = r.ls.getD j 0)
  ∧ (∀ (s : State) (k : Nat) (o : Op), dOpc o.desc = 2 →
      let t := (saTick k o (passes o.desc + 3) s).1
      (t.core k).bank.accs = toMap {} (saRun o).accs ∧ (t.core k).bank.ls = toMap 0 (saRun o).ls
      ∧ (t.core k).drainBuf = (if bitOf (dw o.desc 12) 2 then toMap 0 (saRun o).ls else (s.core k).drainBuf)
      ∧ (t.core k).inflight = (s.core k).inflight ∧ t.skein = s.skein)
  ∧ (∀ d : Desc, dEng d = 1 → dOpc d = 2 → validDesc d = true → bitOf (dw d 12) 2 = true →
      ∀ j, (∃ x, j ∈ drainBeatsAt d x) ↔ j < (fld d 1).extent)
  ∧ (∀ (s : State) (k : Nat) (o : Op), o.eng = 1 → dOpc o.desc = 2 → bitOf (dw o.desc 12) 2 = true →
      let d := o.desc
      let old : Nat → Nat := fun j => (o.els 1).getD j 0
      let acc : Int → Nat → Nat := fun v j => unsigned 128 (clamp128 (v + if bitOf (dw d 12) 3 = true then signed 128 (old j) else 0)).1
      let all : Int → Nat → Nat := fun v j => unsigned 128 (clamp128 (v + signed 128 (old j))).1
      let vs := (saRun o).ls.toList.zipIdx
      ((fld d 1).fmt = 0xF → (opResult s k o).out = fieldBytes d 1 (match bits (dw d 12) 20 2 with
        | 0 => vs.map fun e => acc e.1 e.2
        | 1 => vs.flatMap fun e => [acc e.1 (2 * e.2), acc e.1 (2 * e.2 + 1)]
        | 2 => vs.flatMap fun e => [old (2 * e.2), all e.1 (2 * e.2 + 1)]
        | _ => vs.flatMap fun e => [all (-e.1) (2 * e.2), old (2 * e.2 + 1)]))
      ∧ ((fld d 1).fmt ≠ 0xF → (opResult s k o).out = fieldBytes d 1 (convertAll s o (fld d 1).fmt (fun _ => 0) (drainTick d) 0
        ((saRun o).ls.toList.map fun v => (XVal.ofDyadic v (saRun o).q, false))).1))

/-! ## Transfers -/

/-- COPY (R183, R184, R206, R235, R243, R371). LOCAL to LOCAL and to CORE are fixed-latency; every other pair waits for its beats: to RANK
for the grant of the injection port, to HBM and HOST for its beats to leave, from HBM with a read request for each part of a granule, one
per tick, from STASH with one for each page, from HOST with its beats from host memory, all zero with HOST_XFER_FAIL where Bus Master
Enable is 0; where the domain of the memory is not ON zero data lands and PWR_DOMAIN_OFF is raised (R406). FEED requests as COPY does;
PAGED_RD and PAGED_WR wait for their lists. A timed HOST transfer takes the window granted to it. A LOCAL source is read one beat per tick,
and a LOCAL destination written eight ticks after it. A beat that has been read leaves in that tick: to a core it lands 48 ticks later, or
through an interface to another panel 96, with the signal on the last; to HBM a granule leaves with its last beat. ADD_SEND (R205 to R207)
sends the sums that it has just written. -/
def Obligations.TransfersIssueAndSumsAreSent : Prop :=
  (∀ (s : State) (c : CoreId) (k : Nat) (q : Checked),
      let d := q.desc
      let f0 := fld d 0
      let f1 := fld d 1
      let a := q.eff.getD 0 0
      let b := q.eff.getD 1 0
      let n := f0.extent
      let w := takeWindow s k q
      let starts : Instr → Work → Option Sig → Prop := fun i work sig => Leaves i s k (startedCore s k q (transferOp s k q work sig)) w
      let reads : GranuleKind → Nat → State := fun kind dst => (granuleParts n a n).zipIdx.foldl (fun t e =>
        let off := (e.1.1 - a) / 64
        sendGranule t { kind := kind, core := k, op := q.id, order := q.id, dev := e.1.1, beat := off, beats := e.1.2, dst := dst + 64 * off
                        arrival := s.wall + e.2 + hbmTravel s k a, port := hbmPort s k a }) w
      let pages : Bool → Nat → State := fun feed dst =>
        let x := s.stash (stashPanel a)
        w.setStash (stashPanel a) { x with
          nextReq := x.nextReq + n / 64
          reqs := x.reqs ++ (List.range (n / 64)).map fun i =>
            { id := x.nextReq + i, core := k, op := q.id, order := q.id, page := a + 4096 * i, beat := 64 * i, dst := dst + 4096 * i, feed := feed
              arrival := s.wall + (if stashPanel a = k / 288 then 16 else 64), remote := stashPanel a != k / 288 } }
      let fromHost : List RetBeat := (List.range n).map fun i =>
        { addr := b + 64 * i, bytes := Mem.bytes s.hostMem (a + 64 * i) 64, ready := s.wall + 1, planned := false, order := q.id, op := some q.id, beat := i }
      (Issues s c k q 0 [1] →
        (f0.space = 0 → f1.space = 0 → Starts (.copy c) s k q { mkOp s k q (.fixed (n + 8)) 0 with sig := copySig d })
        ∧ (f0.space = 0 → f1.space = 3 → StartsFixed (.copy c) s k q)
        ∧ (f0.space = 0 → f1.space = 4 → starts (.copy c) (.rank none false) none)
        ∧ (f0.space = 0 → f1.space = 1 → starts (.copy c) (.sending (some n)) (copySig d))
        ∧ (f0.space = 0 → f1.space = 5 → starts (.copy c) (.hostOut []) (copySig d))
        ∧ (f0.space = 1 → domOn s (hbmPlace s a).1 9 = true →
          Leaves (.copy c) s k (startedCore s k q (transferOp s k q (.landing n) (copySig d))) (reads .read b))
        ∧ (f0.space = 1 → (hbmPlace s a).1 < 8 → domOn s (hbmPlace s a).1 9 = false →
          ∃ t, exec (.copy c) s = .next t ∧ RegsFollow w t ∧ (∀ j, j ≠ k → t.core j = s.core j) ∧ t.regBit (.pwr (hbmPlace s a).1) 0x14 1 = true
            ∧ t.core k = { startedCore s k q (transferOp s k q (.landing n) (copySig d)) with zeroQ := (s.core k).zeroQ ++ (List.range n).map fun i =>
              { addr := b + 64 * i, bytes := zeroBeat, ready := s.wall, planned := true, order := q.id, op := some q.id, beat := i } })
        ∧ (f0.space = 2 → domOn s (stashPanel a) 10 = true →
          Leaves (.copy c) s k (startedCore s k q (transferOp s k q (.landing n) (copySig d))) (pages false b))
        ∧ (f0.space = 5 → (FMap.look {} s.fns (hostFn a)).bme = true →
          Leaves (.copy c) s k { startedCore s k q (transferOp s k q (.landing n) (copySig d)) with hostQ := (s.core k).hostQ ++ fromHost } w)
        ∧ (f0.space = 5 → (FMap.look {} s.fns (hostFn a)).bme = false → usesHost d = true → 0 < n → (s.core k).ret = [] → (s.core k).hostQ = [] →
            (∀ o ∈ (s.core k).inflight, o.id ≠ q.id) →
          ∃ t, exec (.copy c) s = .next t ∧ RegsFollow w t ∧ (∀ j, j ≠ k → t.core j = s.core j) ∧ t.regBit .host 0x14 0 = true
            ∧ (t.core k).hostQ = fromHost.map fun x => { x with bytes := zeroBeat }))
      ∧ (Issues s c k q 0 [2] → starts (.pagedRd c) (.landing (fld d 2).extent) none)
      ∧ (Issues s c k q 0 [3] → starts (.pagedWr c) (.sending none) none)
      ∧ (Issues s c k q 0 [4] → f0.space = 1 → domOn s (hbmPlace s a).1 9 = true →
        Leaves (.feed c) s k (startedCore s k q (transferOp s k q (.landing n) none)) (reads .feed 0))
      ∧ (Issues s c k q 0 [4] → f0.space = 2 → domOn s (stashPanel a) 10 = true →
        Leaves (.feed c) s k (startedCore s k q (transferOp s k q (.landing n) none)) (pages true 0))
      ∧ (Issues s c k q 5 [2] → (sendField d).space = 3 → StartsFixed (.addSend c) s k q)
      ∧ (Issues s c k q 5 [2] → (sendField d).space ≠ 3 → starts (.addSend c) (.rank none false) none))
  ∧ (∀ (fuel a n : Nat), n ≤ fuel → a % 64 = 0 →
      ((granuleParts fuel a n).flatMap fun e => (List.range e.2).map fun i => e.1 + 64 * i) = (List.range n).map fun i => a + 64 * i)
  ∧ (∀ (fuel a n : Nat), a % 64 = 0 → ∀ e ∈ granuleParts fuel a n, 0 < e.2 ∧ (e.1 + 64 * e.2 - 1) / 256 = e.1 / 256)
  ∧ (∀ (o : Op) (peek : Nat → List Byte) (x : Nat), o.eng = 0 → dOpc o.desc = 1 → (fld o.desc 0).space = 0 → (∀ g v, o.work ≠ .rank g v) →
      let n := (fld o.desc 0).extent
      accesses o peek x = (if x < n then [⟨1, false, slotOf 0 x, o.eff.getD 0 0 + 64 * x⟩] else [])
        ++ (if (fld o.desc 1).space = 0 ∧ 8 ≤ x ∧ x < n + 8 then [⟨1, true, x - 8, o.eff.getD 1 0 + 64 * (x - 8)⟩] else []))
  ∧ Gives 0 [1] (fun _ _ o => o.bytes 0 (fld o.desc 0).extent)
  ∧ (∀ (s : State) (k : Nat) (o : Op) (j : Nat),
      let d := o.desc
      let f1 := fld d 1
      let b := o.eff.getD 1 0
      let n := (fld d 0).extent
      (f1.space = 3 → copyOut k o [j] s
        = (sendBeat s k (bits f1.base 17 11) (b + j) (o.part 0 j 1) (if j + 1 = n then copySig d else none), o))
      ∧ (f1.space = 1 → (copyOut k o [j] s).1 = (let e := partOf b n j
          if o.partSeen 0 e.1 e.2 then hbmWrite s k o.id (b + 64 * e.1) e.1 (o.part 0 e.1 e.2) else s))
      ∧ (∀ beats, f1.space = 5 → o.work = .hostOut beats → (FMap.look {} s.fns (hostFn b)).bme = true →
          copyOut k o [j] s = (s, { o with feedNext := o.feedNext + 1, work := .hostOut (FMap.put [] beats j (o.part 0 j 1)) }))
      ∧ (dOpc d = 2 → (sendField d).space = 3 → ∀ r : Result, addSendOut k o r [j] s
        = sendBeat s k (bits (sendField d).base 17 11) (o.eff.getD 2 0 + j) (r.beat j)
            (if j + 1 = n then sigOf (dw d 12 / 2 ^ 31) (bits (dw d 12) 29 2) (dw d 13 % 2 ^ 13) (dw d 15) else none)))
  ∧ (∀ (s : State) (k v beat j : Nat) (data : List Byte) (sig : Option Sig), physOf s v = some j → coreOn s j = true →
      let l : Landing := { ptc := s.ptc.toNat + (if j / 288 = k / 288 then 48 else 96), port := fabricPort s k (j / 288), addr := 64 * beat
                           bytes := data, sig := sig, src := localSrc s k }
      (j / 288 = k / 288 ∨ d2dBetween (k / 288) (j / 288) = none →
        sendBeat s k v beat data sig = s.modCore j fun c => { c with landings := c.landings ++ [l] })
      ∧ (∀ m, j / 288 ≠ k / 288 → d2dBetween (k / 288) (j / 288) = some m →
        sendBeat s k v beat data sig = { s with crossings := s.crossings ++ [⟨2 * m + b2n (decide (j / 288 < k / 288)), virtOf s k, j, l⟩] }))
  ∧ (∀ (s : State) (k id a beat : Nat) (data : List Byte), domOn s (hbmPlace s a).1 9 = true →
      hbmWrite s k id a beat data = sendGranule s { kind := .write data, core := k, op := id, order := id, dev := a, beat := beat
                                                    beats := data.length / 64, dst := 0, arrival := s.wall + hbmTravel s k a, port := hbmPort s k a })

/-- EXPAND (R212 to R215): it issues and waits for its input; what it writes is the RAW beats, the stored beats of a BEATMAP in the places
of its map, the planes of a SPARSE24 with zeros for the elements not kept, or the packed tile of a PACK, and zeros from the first beat that
depends on bad input, with which DZ_FORMAT is raised; two output beats per tick, as far as their input is at hand. LANDING_PORT_WRITE
(R103, R228, R267): one beat, with the signal that it carries, of a transfer of the core or of a packet, or the fixed landing of the lowest
port while the others wait. DESCRIPTOR_COMPLETE (R58, R184): a descriptor whose work is done is complete and signals; a LOCAL copy signals in
the tick of its last beat. INPUT_DIGEST_UPDATE (R219): an INPUT transfer that has landed joins the chain of the input digest. -/
def Obligations.CompletionsLandAndSignal : Prop :=
  (∀ (s : State) (c : CoreId) (k : Nat) (q : Checked), Issues s c k q 7 [1] → Starts (.expand c) s k q (mkOp s k q (.expand none) 0))
  ∧ Gives 7 [1] (fun s k o => (expandData o.desc (bitOf (numCtrl s (k / 288)) 0) (o.bytes 0 (dw o.desc 13))).bytes)
  ∧ (∀ (d : Desc) (t1 : Bool) (data : List Byte),
      let w := dw d 12
      let fmt := (fld d 0).fmt
      let e := (fld d 0).extent
      let inb := dw d 13
      let mb := ceilDiv e 512
      let x := expandData d t1 data
      let ones := setBitsOf (512 * mb) (leNat (data.take (64 * mb)))
      (w % 16 = 0 → x.bytes = data ∧ x.bad = none)
      ∧ (w % 16 = 1 → data.length = 64 * inb → inb = mb + ones.length → (∀ i ∈ ones, i < e) →
          x.bad = none ∧ ∀ i, i < e → (x.bytes.drop (64 * i)).take 64 =
            if i ∈ ones then (data.drop (64 * (mb + (ones.filter (· < i)).length))).take 64 else zeroBeat)
      ∧ (w % 16 = 1 → inb ≠ mb + ones.length ∨ (∃ i ∈ ones, e ≤ i) → x.bad.isSome = true)
      ∧ (w % 16 = 2 → 512 ≤ data.length → (∀ i, i < 4096 → let v := (data.getD (512 + i / 2) 0).toNat / 16 ^ (i % 2) % 16; v % 4 < v / 4) →
          x.bad = none ∧ x.bytes.take 512 = data.take 512 ∧ ∀ j kk n, j < storedPlanes fmt (bits w 8 3) → kk < 128 → n < 128 →
            let i := 128 * (kk / 4) + n
            let v := (data.getD (512 + i / 2) 0).toNat / 16 ^ (i % 2) % 16
            let stored : Nat → Nat := fun b => (data.getD (2560 + 1024 * j + b / 8) 0).toNat / 2 ^ (b % 8) % 2
            planeBit x.bytes.toArray j kk n = if kk % 4 = v % 4 then stored (2 * i) else if kk % 4 = v / 4 then stored (2 * i + 1) else 0)
      ∧ (w % 16 = 3 → t1 = false ∨ fmt ≠ 0 →
          let nb := packBeats d
          let els := (elements (fmtBits fmt) (512 * nb / fmtBits fmt) (data.take (64 * nb))).toArray
          let scales := if bitOf w 30 then some ((data.drop (64 * nb)).map (·.toNat)).toArray else none
          x.bytes = (if bitOf w 31 then packActs fmt els scales else packWeights fmt (bits w 8 3) els scales).1)
      ∧ (∀ i, x.bad = some i → x.bytes.drop (64 * i) = List.replicate (x.bytes.length - 64 * i) 0))
  ∧ (∀ (s : State) (k : Nat) (o : Op) (x : Expanded) (i : Nat), k < 2304 → o.eng = 7 → x.bad = some i →
      let b := Blk.eng (k / 288)
      let t := expandEvents k o x [Nat.min i ((fld o.desc 0).extent - 1)] s
      t.regBit b 0x14 2 = true ∧ (s.regBit b 0x40 31 = false → t.regN b 0x40 = 2 ^ 31 + 3 * 2 ^ 16 + 7 * 2 ^ 12 + k % 288
        ∧ t.regN b 0x44 = i % 2 ^ 32 ∧ t.reg64 b 0x48 = s.ptc.toNat))
  ∧ (∀ (o : Op) (i : Nat), o.work = .expand none →
      ((i, o.eff.getD 0 0 + 64 * i) ∈ expandBeats o ↔ (i = o.age ∨ i = o.age + 1) ∧ i < (fld o.desc 0).extent ∧ mapBeats o.desc ≤ o.feedNext
        ∧ needInput o i ≤ o.feedNext))
  ∧ (∀ (s : State) (c : CoreId) (k : Nat), Live s = true → coreOf s c = some k → (s.core k).zeroQ = [] → (s.core k).hostQ = [] →
      let co := s.core k
      (∀ b, co.ret = [b] → b.fifo = false → b.ready ≤ s.wall → co.landings = [] → co.collBuf = [] → co.landedAt ≠ s.wall + 1 →
        ∃ t, exec (.landingPortWrite c) s = .next t ∧ t.skein = Mem.store s.skein (skAddr k b.addr) b.bytes ∧ (t.core k).ret = []
          ∧ t.hbm = s.hbm ∧ SameStores s t ∧ (∀ j, j ≠ k → t.core j = s.core j)
          ∧ (t.core k).inflight = (match b.op with
            | some id => co.inflight.map fun o => if o.id = id then o.landed b.beat b.bytes else o
            | none => co.inflight)
          ∧ t.links = (match b.link with
            | some l => if b.beat = 3 then (freeRx s l 0 1).links else s.links
            | none => s.links)
          ∧ t.rowOps = (match b.sig with
            | some (g, kind, src) => s.rowOps ++ [⟨rowOrder 1 (virtOf s k) 0, k, g.ctr, g.op, g.value, kind, src⟩]
            | none => s.rowOps))
      ∧ (∀ x y, co.landings = [x, y] → x.ptc = y.ptc → x.ptc ≤ s.ptc.toNat → x.port < y.port → y.port < 4096 → co.collBuf = [] →
          co.landedAt ≠ s.wall + 1 → ptcRuns s = true → (∀ b ∈ co.ret, b.fifo = false) →
        ∃ t, exec (.landingPortWrite c) s = .next t ∧ t.skein = Mem.store s.skein (skAddr k x.addr) x.bytes ∧ (t.core k).landings = []
          ∧ (t.core k).collBuf = [y] ∧ (t.core k).ret = co.ret ∧ (∀ j, j ≠ k → t.core j = s.core j)
          ∧ (s.regBit .plan 0x6C 31 = false →
            t.regN .plan 0x6C = 2 ^ 31 + x.port * 2 ^ 16 + y.port ∧ t.reg64 .plan 0x70 = s.ptc.toNat)
          ∧ (FMap.look 0 s.faultAt (Blk.plan.base + 0x68) ≠ s.wall + 1 → t.reg .plan 0x68 = satInc (s.reg .plan 0x68)))
      ∧ (∀ o, co.inflight = [o] → o.done = none → o.varLat = true → workDone s k o = true → co.ret = [] →
        ∃ t, exec (.descriptorComplete c o.id) s = .next t ∧ (t.core k).inflight = [{ o with done := some s.wall }] ∧ SameMemories s t
          ∧ (∀ j, j ≠ k → t.core j = s.core j) ∧ t.rowOps = (match o.sig with
            | some g => s.rowOps ++ [⟨rowOrder 2 (virtOf s k) o.id, k, g.ctr, g.op, g.value, 2, localSrc s k⟩]
            | none => s.rowOps))
      ∧ (∀ o, co.inflight.find? (fun o => o.input && !o.digestDone) = some o → o.work = .landing 0 →
        ∃ t, exec (.inputDigestUpdate c) s = .next t ∧ SameMemories s t ∧ (t.core k).digestN = co.digestN + 1
          ∧ (∀ j, j ≠ k → t.core j = s.core j)
          ∧ (t.core k).digestH = sha3 (co.digestH ++ leBytes 8 co.digestN ++ leBytes 8 (inputBytes o.desc)
              ++ sha3 (Mem.bytes o.digestData 0 (inputBytes o.desc)))))
  ∧ (∀ (s : State) (k dur : Nat) (o : Op) (g : Sig), o.work = .fixed dur → o.sig = some g →
      localSignal k o s = if o.age + 1 = dur then
        { s with rowOps := s.rowOps ++ [⟨rowOrder 2 (virtOf s k) o.id, k, g.ctr, g.op, g.value, 2, localSrc s k⟩] } else s)

/-- HOST_WINDOW_GRANT and HOST_REQUEST_FAIL (R369 to R371): with the grant enabled and fewer than MAX timed HOST transfers incomplete, the
earliest waiting descriptor whose function is not in D3hot gets one window of its own, and no other; the read beats of a failed host request
that have not landed become zero, its write beats are dropped, and the failure is an error of the HOST block, the first one recorded.
STREAM_DRAINED: firmware notes the end of a drained segment once, and writes the record of each swatch buffer of the core to HBM; no other
memory changes. -/
def Obligations.HostWindowsFailuresAndDrainedStreams : Prop :=
  (∀ s : State, Live s = true →
      (∀ e, s.regBit .host 0x4C 31 = true → openWindows s < s.regN .host 0x4C % 256 →
          minOn? (waitKey s) (s.hostWaits.filter fun e => !waitsOnD3 s e.2.1 e.2.2) = some e →
        ∃ t, exec .hostWindowGrant s = .next t ∧ t.hostWaits = s.hostWaits.erase e ∧ t.hostGrants = s.hostGrants ++ [(e.2.1, e.2.2, s.wall)]
          ∧ t.cores = s.cores ∧ t.regs = s.regs ∧ SameMemories s t)
      ∧ (s.regBit .host 0x4C 31 = false ∨ s.regN .host 0x4C % 256 ≤ openWindows s →
        ∃ t, exec .hostWindowGrant s = .next t ∧ t.hostWaits = s.hostWaits ∧ t.hostGrants = s.hostGrants ∧ t.cores = s.cores ∧ SameMemories s t)
      ∧ (∀ c k op first count kind o, coreOf s c = some k → (s.core k).inflight.find? (fun o => o.id == op) = some o →
          (hostOutstanding (s.core k) o first count = true →
            let failed (i : Nat) : Prop := first ≤ i ∧ i < first + count
            ∃ t, exec (.hostRequestFail c op first count kind) s = .next t ∧ t.regBit .host 0x14 0 = true ∧ SameMemories s t
              ∧ (∀ b ∈ (t.core k).ret ++ (t.core k).hostQ, b.op = some op → failed b.beat → b.bytes = zeroBeat)
              ∧ (t.core k).ret.length = (s.core k).ret.length ∧ (t.core k).hostQ.length = (s.core k).hostQ.length
              ∧ (∀ beats, o.work = .hostOut beats → ∃ o2, (t.core k).inflight.find? (fun o => o.id == op) = some o2
                  ∧ o2.work = .hostOut (beats.filter fun e => !(decide (first ≤ e.1) && decide (e.1 < first + count))))
              ∧ (s.regBit .host 0x54 31 = false → t.regN .host 0x54
                  = 2 ^ 31 + c.panel * 2 ^ 28 + c.core * 2 ^ 19 + hostKind kind * 2 ^ 16 + hostIndex o.desc % 256)
              ∧ (s.regBit .host 0x54 31 = true → t.regN .host 0x54 = s.regN .host 0x54)
              ∧ (∀ j, j ≠ k → t.core j = s.core j))
          ∧ (hostOutstanding (s.core k) o first count = false →
            ∃ t, exec (.hostRequestFail c op first count kind) s = .next t ∧ t.cores = s.cores ∧ t.regs = s.regs ∧ SameMemories s t)))
  ∧ (∀ (s : State) (c : CoreId) (k : Nat) (e : DWord × DWord), Live s = true → coreOf s c = some k →
      (s.core k).stream.ended = some e →
      (drained (s.core k) = true →
        ∃ t, exec (.streamDrained c) s = .next t ∧ (t.core k).stream.ended = none ∧ t.skein = s.skein ∧ SameStores s t
          ∧ (∀ j, j ≠ k → t.core j = s.core j)
          ∧ t.hbm = (if s.boot.loaded then s.boot.swatches.zipIdx.foldl (fun m x =>
              if x.1.1 = virtOf s k then Mem.store m x.1.2.2.2 (swatchRecord s k x.2 e.1 e.2) else m) s.hbm else s.hbm))
      ∧ (drained (s.core k) = false → ∃ t, exec (.streamDrained c) s = .next t ∧ t.cores = s.cores ∧ SameMemories s t))

/-! ## Skein events, HBM, charts -/

/-- SKN_WRITEBACK, SKN_SCRUB, SKN_INJECT and SA_INJECT: in a tick that no landing takes, the oldest queued word of a bank goes back to the
skein, and its stored error is gone (R229); a scrub reads the beat of its panel's round once and changes no memory, a single-bit error that
it meets is counted and queued for write-back, a double-bit one sets SKN_UNCORR; when all have read, the panel goes to the next beat after
SCRUB_INT plan clock periods (R230, R259); the injection registers take the fields of the word written (R175, R259). That stored errors come
in as the operand of SKN_SCRUB is the model's choice (log entry 140). -/
def Obligations.TheSkeinsOwnEvents : Prop :=
  ∀ (s : State) (c : CoreId) (k : Nat) (p : Nat) (w : Word), Live s = true → coreOf s c = some k →
    (∀ bank e, landingPortFree s k = true → (s.core k).wb.find? (fun x => x.1 / 64 % 32 == bank) = some e →
      ∃ t, exec (.sknWriteback c bank) s = .next t ∧ t.skein = Mem.store s.skein (skAddr k e.1) e.2
        ∧ (t.core k).wb = (s.core k).wb.filter (fun x => !(decide (e.1 ≤ x.1) && decide (x.1 < e.1 + e.2.length)))
        ∧ (t.core k).landedAt = s.wall + 1 ∧ t.hbm = s.hbm ∧ SameStores s t ∧ (∀ j, j ≠ k → t.core j = s.core j))
    ∧ (∀ bank, landingPortFree s k = false → ∃ t, exec (.sknWriteback c bank) s = .next t ∧ t.cores = s.cores ∧ SameMemories s t)
    ∧ (domOn s (k / 288) (k % 288 / 36) = true → s.skErr = [] → s.landed = [] →
      let pos := FMap.look 0 s.scrubPos (k / 288)
      let due : Bool := decide (FMap.look 0 s.scrubFrom (k / 288) + scrubInterval s (k / 288) ≤ s.wall)
      let here : Bool := decide ((s.core k).scrubbed = pos + 1)
      let n := if here && due then pos + 1 else pos
      (∃ t, exec (.sknScrub c []) s = .next t ∧ SameMemories s t ∧ FMap.look 0 t.scrubPos (k / 288) = n
        ∧ t.core k = { s.core k with scrubbed := if here && !due then (s.core k).scrubbed else n + 1 }
        ∧ (∀ j, j ≠ k → t.core j = s.core j) ∧ (∀ q, q ≠ k / 288 → FMap.look 0 t.scrubPos q = FMap.look 0 s.scrubPos q))
      ∧ (∀ a, a / 64 = n % 49152 → (here && !due) = false →
        let word := a - a % 8
        (∃ t, exec (.sknScrub c [⟨a, true⟩]) s = .next t ∧ SameMemories s t ∧ t.regBit (.skn (k / 288)) 0x14 0 = true
          ∧ (t.core k).wb = (s.core k).wb)
        ∧ (((s.core k).wb.filter fun x => x.1 / 64 % 32 == word / 64 % 32).length < 4 →
          ∃ t, exec (.sknScrub c [⟨a, false⟩]) s = .next t ∧ SameMemories s t
            ∧ t.reg (.skn (k / 288)) 0x44 = satInc (s.reg (.skn (k / 288)) 0x44)
            ∧ (t.core k).wb = (s.core k).wb ++ [(word, Mem.bytes s.skein (skAddr k word) 8)])))
    ∧ (p < s.fuses.panels → hasReserved ((Blk.skn p).fields 0x5C) w.toNat = false →
      ∃ t, exec (.sknInject p w) s = .next t ∧ SameMemories s t ∧ t.cores = s.cores
        ∧ t.reg (.skn p) 0x5C = BitVec.ofNat 32 (writeFields ((Blk.skn p).fields 0x5C) (s.regN (.skn p) 0x5C) w.toNat))
    ∧ (p < s.fuses.panels → hasReserved ((Blk.sa p).fields 0x54) w.toNat = false →
      ∃ t, exec (.saInject p w) s = .next t ∧ SameMemories s t ∧ t.cores = s.cores
        ∧ t.reg (.sa p) 0x54 = BitVec.ofNat 32 (writeFields ((Blk.sa p).fields 0x54) (s.regN (.sa p) 0x54) w.toNat))

/-- HBM_GRANULE_START (R235, R240, R260): the request of the pseudo-channel that comes first, once stack, bank and buffer are free, leaves
the queue, and its start is noted for the spacing of the next; a write, of a core or of the host, stores its bytes at its device address
after the older writes to the granule, and changes nothing else of the HBM; a read returns the bytes with every write that reached the
controller before it, each beat with its ready time, a fetch the granule to its stream, a host read its part to the host; none of them
changes a memory. An error that a read finds is counted, or sets HBM_UNCORR; an armed HBM_INJECT acts once. -/
def Obligations.AGranuleStartsInOrder : Prop :=
  ∀ (s : State) (p st pc : Nat) (found : List WordError), Live s = true → writable s (.hbm p st) = true →
    let h := s.hbmStack p st
    (∀ g : Granule, minOn? Granule.key (waitingOn s p st pc) = some g →
      let bank := (hbmPlace s g.dev).2.2.2
      let older := writesBefore h g.dev g.key
      let bytes (n : Nat) : List Byte := hbmBytes s p st g.key g.dev n
      let reads : Prop := ∀ bs, g.kind ≠ .write bs ∧ g.kind ≠ .hostWrite bs
      let disarmed : Prop := s.regBit (.hbm p st) 0x74 31 = false
      (stackFree s p st = true → spacingOk s h pc bank = true → roomFor s g = true →
        ∃ t, exec (.hbmGranuleStart p st pc found) s = .next t ∧ t.skein = s.skein ∧ SameStores s t
          ∧ FMap.look 0 (t.hbmStack p st).lastStart pc = s.wall + 1 ∧ FMap.look 0 (t.hbmStack p st).bankStart (64 * pc + bank) = s.wall + 1
          ∧ ((∃ bs, g.kind = .write bs ∨ g.kind = .hostWrite bs) →
              t.hbm = Mem.store (older.foldl (fun m x => Mem.store m x.dev x.data) s.hbm) g.dev g.data ∧ t.cores = s.cores
                ∧ (t.hbmStack p st).queue.length = h.queue.length - 1 ∧ (older = [] → (t.hbmStack p st).queue = h.queue.erase g))
          ∧ (reads → t.hbm = s.hbm ∧ (t.hbmStack p st).queue = h.queue.erase g ∧ (∀ j, j ≠ g.core → t.core j = s.core j))
          ∧ (g.kind = .read ∨ g.kind = .feed → found = [] → disarmed →
              t.core g.core = { s.core g.core with ret := (s.core g.core).ret ++ returnBeats s g p (bytes (64 * g.beats)) })
          ∧ (g.kind = .fetch → found = [] → disarmed → ∀ x ∈ (t.core g.core).stream.tr.fetch.out, x.id = g.op → x.bytes = bytes 256
              ∧ x.ready = some (s.wall + tL s + 3 * tG s / 4 + (if p = g.core / 288 then 0 else 48)))
          ∧ (∀ id n r, g.kind = .hostRead id n → found = [] → disarmed → s.hostReads = [r] → r.id = id →
              (r.left ≤ 1 → t.hostReads = [] ∧ t.reply.bytes = splice r.bytes g.beat (bytes n))
              ∧ (1 < r.left → t.hostReads = [{ r with bytes := splice r.bytes g.beat (bytes n), left := r.left - 1 }]))
          ∧ (∀ e, reads → disarmed → found = [e] → g.dev - g.dev % 256 ≤ e.addr → e.addr < g.dev - g.dev % 256 + 256 →
              if e.double then t.regBit (.hbm p st) 0x14 0 = true else t.reg (.hbm p st) 0x58 = satInc (s.reg (.hbm p st) 0x58))
          ∧ (reads → found = [] → ¬disarmed → t.regBit (.hbm p st) 0x74 31 = false
              ∧ (if s.regN (.hbm p st) 0x74 % 4 = 0 then t.reg (.hbm p st) 0x58 = satInc (s.reg (.hbm p st) 0x58)
                else t.regBit (.hbm p st) 0x14 0 = true)))
      ∧ (stackFree s p st = false ∨ spacingOk s h pc bank = false ∨ roomFor s g = false →
        ∃ t, exec (.hbmGranuleStart p st pc found) s = .next t ∧ t.hbmStacks = s.hbmStacks ∧ t.cores = s.cores ∧ SameMemories s t))
    ∧ (waitingOn s p st pc = [] → ∃ t, exec (.hbmGranuleStart p st pc found) s = .next t ∧ t.hbmStacks = s.hbmStacks ∧ t.cores = s.cores
        ∧ SameMemories s t)

/-- HBM_REFRESH_WINDOW, HBM_FREE_REFRESH, HBM_PATROL_SCRUB and HBM_SCRUB_SLOT: a window takes its length from the tick that PTC names (R238);
a FREE stack refreshes every 1,950 ns (R234); the patrol reads one granule of a quiet pseudo-channel; a slot occupies its stack, and each
pseudo-channel reads as many granules as the ticks that no refresh window takes have room for (R241), a waiting host access before them.
HBM_MODE_WRITE and HBM_INJECT (R234, R260): a stack becomes PLANNED only with its phases below their periods and while no timed segment
runs, and enters FREE at once; the injection register takes the word written. That a slot's granules are decided at its start is the model's
choice (log entry 142). -/
def Obligations.HbmStacksRefreshScrubAndChangeMode : Prop :=
  (∀ (s : State) (p st : Nat), Live s = true → writable s (.hbm p st) = true →
      let h := s.hbmStack p st
      let position (t : State) (pc : Nat) : Nat := FMap.look 0 (t.hbmStack p st).scrubPos pc
      let slot : Prop := atPtc s p st (2 ^ (s.regN (.hbm p st) 0x4C)) (s.regN (.hbm p st) 0x50) = true ∧ h.slotUntil ≤ s.wall
      let granules := (slotTicks s p st (s.regN (.hbm p st) 0x54)).length / tG s
      (atPtc s p st (s.regN (.hbm p st) 0x44) (s.regN (.hbm p st) 0x48) = true → h.windowFrom ≠ s.wall + 1 →
        ∃ t, exec (.hbmRefreshWindow p st) s = .next t ∧ t.hbmStack p st = { h with windowUntil := s.wall + windowLen s, windowFrom := s.wall + 1 }
          ∧ t.cores = s.cores ∧ SameMemories s t)
      ∧ (planned s p st = false → h.freeSince + 1950 * (h.freeRefs + 1) ≤ s.time.toNat →
        ∃ t, exec (.hbmFreeRefresh p st) s = .next t ∧ (t.hbmStack p st).freeRefs = h.freeRefs + 1
          ∧ s.wall + nsToPeriods s (refreshNs s) ≤ (t.hbmStack p st).refreshUntil ∧ (t.hbmStack p st).queue = h.queue ∧ t.cores = s.cores
          ∧ SameMemories s t)
      ∧ (∀ pc, planned s p st = false → pc < 32 → stackFree s p st = true → waitingOn s p st pc = [] →
          spacingOk s h pc (hbmPlace s (scrubAddr s p st pc (position s pc))).2.2.2 = true →
        ∃ t, exec (.hbmPatrolScrub p st pc []) s = .next t ∧ position t pc = position s pc + 1
          ∧ FMap.look 0 (t.hbmStack p st).lastStart pc = s.wall + 1 ∧ t.cores = s.cores ∧ SameMemories s t)
      ∧ (slot → (∀ pc, pc < 32 → (arrivedOn s p st pc).filter Granule.isHost = []) →
        ∃ t, exec (.hbmScrubSlot p st []) s = .next t ∧ (t.hbmStack p st).slotUntil = s.wall + s.regN (.hbm p st) 0x54
          ∧ (∀ pc, pc < 32 → position t pc = position s pc + granules) ∧ (t.hbmStack p st).queue = h.queue ∧ t.cores = s.cores
          ∧ SameMemories s t)
      ∧ (∀ pc g bs, slot → 0 < granules → pc < 32 → (arrivedOn s p st pc).filter Granule.isHost = [g] → g.kind = .hostWrite bs →
          writesBefore h g.dev g.key = [] → (∀ q, q < 32 → q ≠ pc → (arrivedOn s p st q).filter Granule.isHost = []) →
        ∃ t, exec (.hbmScrubSlot p st []) s = .next t ∧ t.hbm = Mem.store s.hbm g.dev bs ∧ (t.hbmStack p st).queue = h.queue.erase g
          ∧ position t pc = position s pc + (granules - 1) ∧ t.skein = s.skein ∧ SameStores s t ∧ t.cores = s.cores))
  ∧ (∀ (s : State) (p st : Nat), Live s = true → writable s (.hbm p st) = true →
      (timedRuns s = false → phasesOk s p st = true →
        ∃ t, exec (.hbmModeWrite p st true) s = .next t ∧ planned t p st = true ∧ t.cores = s.cores ∧ SameMemories s t)
      ∧ (timedRuns s = true ∨ phasesOk s p st = false →
        ∃ t, exec (.hbmModeWrite p st true) s = .next t ∧ planned t p st = planned s p st ∧ t.cores = s.cores ∧ SameMemories s t)
      ∧ (timedRuns s = false → planned s p st = true →
        ∃ t, exec (.hbmModeWrite p st false) s = .next t ∧ planned t p st = false ∧ (t.hbmStack p st).freeSince = s.time.toNat
          ∧ (t.hbmStack p st).freeRefs = 0 ∧ t.cores = s.cores ∧ SameMemories s t)
      ∧ (timedRuns s = true → ∃ t, exec (.hbmModeWrite p st false) s = .next t ∧ planned t p st = planned s p st ∧ t.hbmStacks = s.hbmStacks
          ∧ t.cores = s.cores ∧ SameMemories s t)
      ∧ (∀ w : Word, hasReserved ((Blk.hbm p st).fields 0x74) w.toNat = false →
        ∃ t, exec (.hbmInject p st w) s = .next t ∧ SameMemories s t ∧ t.cores = s.cores
          ∧ t.reg (.hbm p st) 0x74 = BitVec.ofNat 32 (writeFields ((Blk.hbm p st).fields 0x74) (s.regN (.hbm p st) 0x74) w.toNat)))

/-- BAR4_ACCESS (R258): an access is cut at granule boundaries, and each part that is populated and of a panel with domain 9 ON goes to its
controller as a request of the host, with its bytes; it acts as AGranuleStartsInOrder says. What reaches nothing reads zeros at once. The
first address that is not populated sets APT_UNMAPPED and is recorded, and a panel whose domain 9 is not ON sets PWR_DOMAIN_OFF. Beyond the
aperture nothing happens. That the parts come after every port of R102 in their tick is the model's choice (log entry 141). -/
def Obligations.Bar4ReachesTheHbm : Prop :=
  (∀ (s : State) (off : Nat) (a : HostAccess), Live s = true →
    let dev := aptBase s + off
    let n := match a with
      | .read n => n
      | .write bs => bs.length
    let parts := byteParts n dev n
    let toStack (p st : Nat) : List (Nat × Nat) := parts.filter fun e => hostReaches s e && (hbmPlace s e.1).1 == p && (hbmPlace s e.1).2.1 == st
    let id := freshHostId s
    let request (kind : GranuleKind) (e : Nat × Nat) : Granule :=
      { kind := kind, core := 0, op := 0, order := 0, dev := e.1, beat := e.1 - dev, beats := 0, dst := 0, arrival := s.wall, port := hostPort }
    (2 ^ (s.regN .mem 0x48 % 64) ≤ off → ∃ t, exec (.bar4Access off a) s = .next t ∧ SameMemories s t ∧ t.reply = s.reply ∧ t.regs = s.regs)
    ∧ (off < 2 ^ (s.regN .mem 0x48 % 64) →
      ∃ t, exec (.bar4Access off a) s = .next t ∧ SameMemories s t ∧ t.cores = s.cores
        ∧ (∀ bs, a = .write bs → t.hostReads = s.hostReads ∧ t.reply = s.reply ∧ ∀ p st, st < 3 → (t.hbmStack p st).queue
            = (s.hbmStack p st).queue ++ (toStack p st).map fun e => request (.hostWrite ((bs.drop (e.1 - dev)).take e.2)) e)
        ∧ (∀ m, a = .read m → (∀ p st, st < 3 → (t.hbmStack p st).queue
            = (s.hbmStack p st).queue ++ (toStack p st).map fun e => request (.hostRead id e.2) e)
          ∧ ((parts.filter (hostReaches s)) = [] → t.reply = ⟨0, List.replicate m 0⟩ ∧ t.hostReads = s.hostReads)
          ∧ ((parts.filter (hostReaches s)) ≠ [] →
              t.hostReads = s.hostReads ++ [⟨id, List.replicate m 0, (parts.filter (hostReaches s)).length⟩]))
        ∧ (∀ e, parts.find? (fun e => !hbmAddrOk s e.1) = some e → t.regBit .mem 0x14 0 = true
            ∧ (s.regBit .mem 0x14 0 = false → t.reg64 .mem 0x50 = e.1 % 2 ^ 48))
        ∧ (∀ p ∈ hostOff s parts, t.regBit (.pwr p) 0x14 1 = true)))
  ∧ (∀ a n, let ps := byteParts n a n
      (ps.map (·.2)).sum = n ∧ (∀ e ∈ ps, 0 < e.2 ∧ e.1 % 256 + e.2 ≤ 256 ∧ a ≤ e.1 ∧ e.1 + e.2 ≤ a + n)
        ∧ ∀ i, i + 1 < ps.length → (ps.getD (i + 1) (0, 0)).1 = (ps.getD i (0, 0)).1 + (ps.getD i (0, 0)).2)

/-- FETCH_GRANULE_REQUEST and FETCH_GRANULE_RETURN (R51, R65, R239): chart fetch changes only the fetch of its own core and the queue of one
stack: no memory, no other core, no checked descriptor. The granule that holds the next descriptor in stream order is requested of its
stack's controller and waits among those outstanding, with that descriptor in the window; when it has returned, its descriptors are decoded,
those of the bytes that returned. A granule of a panel whose domain 9 is not ON is zeros, with PWR_DOMAIN_OFF (R406). -/
def Obligations.ChartFetchTouchesOnlyItsFetch : Prop :=
  ∀ (s : State) (c : CoreId) (k : Nat), Live s = true → coreOf s c = some k →
    let tr (t : State) : Track := (t.core k).stream.tr
    (∃ t, exec (.fetchGranuleRequest c) s = .next t ∧ SameMemories s t ∧ (∀ j, j ≠ k → t.core j = s.core j)
      ∧ (t.core k).stream.checked = (s.core k).stream.checked ∧ (tr t).pos = (tr s).pos ∧ (t.core k).inflight = (s.core k).inflight)
    ∧ (∃ t, exec (.fetchGranuleReturn c) s = .next t ∧ SameMemories s t ∧ (∀ j, j ≠ k → t.core j = s.core j)
      ∧ (t.core k).stream.checked = (s.core k).stream.checked ∧ (tr t).pos = (tr s).pos ∧ (t.core k).inflight = (s.core k).inflight)
    ∧ (∀ a, s.flt.stopped = false → s.clk.switching = none → (s.core k).stream.old = none →
        fetchWants s (s.core k).stream (tr s).fetch = some a →
      let g := a - a % 256
      let id := (s.core k).nextOp
      (domOn s (hbmPlace s a).1 9 = true →
        ∃ t r x d rest, exec (.fetchGranuleRequest c) s = .next t ∧ r.kind = .fetch ∧ r.dev = g ∧ r.core = k ∧ r.op = id
          ∧ (t.hbmStack (hbmPlace s g).1 (hbmPlace s g).2.1).queue = (s.hbmStack (hbmPlace s g).1 (hbmPlace s g).2.1).queue ++ [r]
          ∧ (tr t).fetch.out = (tr s).fetch.out ++ [x] ∧ x.id = id ∧ x.addr = g ∧ x.entry = a ∧ x.ready = none
          ∧ (tr t).fetch.window = (tr s).fetch.window ++ d :: rest ∧ d = ⟨a, descAt (hbmSeen s g 256) (a - g), id, none⟩)
      ∧ (domOn s (hbmPlace s a).1 9 = false →
        ∃ t x, exec (.fetchGranuleRequest c) s = .next t ∧ t.regBit (.pwr (hbmPlace s a).1) 0x14 1 = true ∧ t.hbmStacks = s.hbmStacks
          ∧ (tr t).fetch.out = (tr s).fetch.out ++ [x] ∧ x.bytes = List.replicate 256 0 ∧ x.ready.isSome = true))
    ∧ (∀ g r, (s.core k).stream.old = none → (tr s).fetch.out = [g] → g.ready = some r → r ≤ s.wall →
      let decoded (d : Fetched) : Fetched := if d.gran = g.id then { d with tick := some s.wall } else d
      (g.bytes = g.guess → ∃ t, exec (.fetchGranuleReturn c) s = .next t ∧ (tr t).fetch.out = []
        ∧ (tr t).fetch.window = (tr s).fetch.window.map decoded)
      ∧ (g.bytes ≠ g.guess → g.addr ≤ g.entry → g.entry < g.addr + 256 →
        ∃ t rest, exec (.fetchGranuleReturn c) s = .next t ∧ (tr t).fetch.out = []
          ∧ (tr t).fetch.window = ((tr s).fetch.window.takeWhile fun d => d.gran != g.id)
              ++ ⟨g.entry, descAt g.bytes (g.entry - g.addr), g.id, some s.wall⟩ :: rest))

/-! ## Stash -/

/-- STS_READ, STS_PROGRAM, STS_ERASE, STS_VERIFY and STS_BB_READ (R245): a command starts with the addresses and pages of its registers
and shows BUSY; while one runs, another is refused and the running one stays. STS_COMMAND_DONE (R245, R247, R261): a command outside its
ranges ends with code 2 and moves nothing; a READ moves its pages to HBM, up to the first that cannot be decoded, and ends with their count;
a PROGRAM stores pages of HBM in erased ones, stops with code 3 at a programmed page, and with code 4 at a page that fails its read-back, its
block then erased and mapped to a spare, or code 7 with no spare left; an ERASE leaves every byte of its blocks reading 0 and no other byte
changed; a VERIFY counts the pages that agree and ends with code 6 at one that does not; a black-box read moves bytes of a slot. -/
def Obligations.StashCommandsStartOneAtATimeAndEnd : Prop :=
  (∀ (s : State) (p : Nat), Live s = true → writable s (.sts p) = true →
      let c : Nat → StsCmd := fun op => ⟨op, s.reg64 (.sts p) 0x48 % 2 ^ 44, s.reg64 (.sts p) 0x50 % 2 ^ 48, s.regN (.sts p) 0x58⟩
      let started : Instr → Nat → Prop := fun i op => ∃ t, exec i s = .next t ∧ (t.stash p).cmd = some (c op) ∧ t.reg (.sts p) 0x44 = 0x80000000#32
        ∧ SameMemories s t ∧ t.cores = s.cores
      let refused : Instr → Prop := fun i => ∃ t, exec i s = .next t ∧ (t.stash p).cmd = (s.stash p).cmd ∧ SameMemories s t ∧ t.cores = s.cores
        ∧ bits (t.regN (.sts p) 0x44) 16 4 = 1
      ((s.stash p).cmd = none → started (.stsRead p) 1 ∧ started (.stsProgram p) 2 ∧ started (.stsErase p) 3 ∧ started (.stsVerify p) 4
        ∧ started (.stsBbRead p) 5)
      ∧ ((s.stash p).cmd ≠ none → refused (.stsRead p) ∧ refused (.stsProgram p) ∧ refused (.stsErase p) ∧ refused (.stsVerify p)
        ∧ refused (.stsBbRead p)))
  ∧ (∀ (s : State) (p : Nat) (c : StsCmd), Live s = true → writable s (.sts p) = true → (s.stash p).cmd = some c →
      let n := 4096 * c.pages
      let page0 := pageIx c.saddr
      let hbmOn : Prop := domOn s (hbmPlace s c.haddr).1 9 = true
      let quiet : Prop := ∀ q st, (s.hbmStack q st).queue = []
      let ends (m : StsMedium) (err done : Nat) (t : State) : Prop := exec (.stsCommandDone p m []) s = .next t ∧ (t.stash p).cmd = none
        ∧ t.reg (.sts p) 0x44 = BitVec.ofNat 32 (err * 2 ^ 16 + done) ∧ t.regBit (.sts p) 0x20 0 = true ∧ t.skein = s.skein
        ∧ t.bbMem = s.bbMem ∧ t.sram = s.sram ∧ t.hostMem = s.hostMem ∧ t.bootMem = s.bootMem
      let toHbm (src : Mem) (a m : Nat) (t : State) : Prop := t.stashMem = s.stashMem
        ∧ (∀ i, i < 4096 * m → Mem.byte t.hbm (c.haddr + i) = Mem.byte src (a + i))
        ∧ (quiet → t.hbm = Mem.store s.hbm c.haddr (Mem.bytes src a (4096 * m)))
      (stsRangeOk s p c = false → ∀ m found, ∃ t, exec (.stsCommandDone p m found) s = .next t ∧ (t.stash p).cmd = none
        ∧ t.reg (.sts p) 0x44 = 0x20000#32 ∧ SameMemories s t)
      ∧ (stsRangeOk s p c = true →
        (c.op = 1 → hbmOn →
          (∃ t, ends .ok 0 c.pages t ∧ toHbm s.stashMem c.saddr c.pages t)
          ∧ ∀ i, i < c.pages → ∃ t, ends (.uncorr i) 5 i t ∧ toHbm s.stashMem c.saddr i t)
        ∧ (c.op = 2 → hbmOn → quiet →
          ((∀ j, j < c.pages → isProgrammed s (c.saddr + 4096 * j) = false) →
            (∃ t, ends .ok 0 c.pages t ∧ t.hbm = s.hbm ∧ t.stashMem = Mem.store s.stashMem c.saddr (Mem.bytes s.hbm c.haddr n)
              ∧ ∀ j, j < c.pages → isProgrammed t (c.saddr + 4096 * j) = true)
            ∧ (∀ ph, leastWorn (s.stash p) = some ph → ∃ t, ends (.verifyFail 0) 4 0 t ∧ t.hbm = s.hbm
                ∧ physBlock (t.stash p) (page0 / 8192) = ph
                ∧ t.stashMem = Mem.forget s.stashMem (p * stashSize + page0 / 8192 * 0x2000000) 0x2000000)
            ∧ (leastWorn (s.stash p) = none → ∃ t, ends (.verifyFail 0) 7 0 t ∧ SameMemories s t))
          ∧ (isProgrammed s c.saddr = true → ∃ t, ends .ok 3 0 t ∧ SameMemories s t))
        ∧ (c.op = 3 → ∃ t, ends .ok 0 c.pages t ∧ t.hbm = s.hbm
          ∧ (∀ a, c.saddr ≤ a → a < c.saddr + n → Mem.byte t.stashMem a = 0 ∧ isProgrammed t a = false)
          ∧ (∀ a, a < c.saddr ∨ c.saddr + n ≤ a → Mem.byte t.stashMem a = Mem.byte s.stashMem a)
          ∧ (c.pages = 8192 → wearOf (t.stash p) (physBlock (s.stash p) (page0 / 8192)) = wearOf (s.stash p) (physBlock (s.stash p) (page0 / 8192)) + 1))
        ∧ (c.op = 4 → hbmOn → quiet →
          (Mem.bytes s.hbm c.haddr n = Mem.bytes s.stashMem c.saddr n → ∃ t, ends .ok 0 c.pages t ∧ SameMemories s t)
          ∧ (Mem.bytes s.hbm c.haddr 4096 ≠ Mem.bytes s.stashMem c.saddr 4096 → ∃ t, ends .ok 6 0 t ∧ SameMemories s t)
          ∧ (∃ t, ends (.uncorr 0) 5 0 t ∧ SameMemories s t))
        ∧ (c.op = 5 → hbmOn → ∃ t, ends .ok 0 c.pages t ∧ toHbm s.bbMem (2 ^ 25 * p + c.saddr % 2 ^ 25) c.pages t)))

/-- STASH_PAGE_DECODED, STASH_PAGE_DELIVER and STASH_BLOCK_SCRUB (R243, R247, R248): a page that decodes is held with its bytes and counted
as a read of its block, with STASH_UNCORR when it cannot be decoded; the first decoded page leaves the queue at most every 25.6 ns, when the
external part has room, and its 64 beats wait in the core's buffer; a scrub notes its TIME, moves no data, maps a weak block to a spare and
reports a page that it cannot read. -/
def Obligations.StashPagesDecodeDeliverAndScrub : Prop :=
  ∀ (s : State) (p : Nat), Live s = true → writable s (.sts p) = true →
    let x := s.stash p
    (∀ r recovered, x.reqs = [r] → r.decoded = none → r.arrival ≤ s.wall →
      let blk := pageIx r.page / 8192
      (∃ t, exec (.stashPageDecoded p r.id recovered false) s = .next t
        ∧ (t.stash p).reqs = [{ r with decoded := some s.wall, bytes := Mem.bytes s.stashMem r.page 4096 }]
        ∧ FMap.look 0 (t.stash p).reads blk = FMap.look 0 x.reads blk + 1
        ∧ t.reg (.sts p) 0x64 = (if recovered then satInc (s.reg (.sts p) 0x64) else s.reg (.sts p) 0x64) ∧ SameMemories s t ∧ t.cores = s.cores)
      ∧ (∃ t bytes, exec (.stashPageDecoded p r.id recovered true) s = .next t
        ∧ (t.stash p).reqs = [{ r with decoded := some s.wall, bytes := bytes }] ∧ t.regBit (.sts p) 0x14 0 = true
        ∧ t.reg (.sts p) 0x64 = satInc (s.reg (.sts p) 0x64) ∧ SameMemories s t ∧ t.cores = s.cores))
    ∧ (∀ r, minOn? StashReq.deliverKey (x.reqs.filter fun r => r.decoded.isSome) = some r →
      let early : Bool := x.lastDeliver != 0 && decide (10 * (s.time.toNat - (x.lastDeliver - 1)) < 256)
      (early = false → 64 ≤ bufferRoom (s.core r.core) false →
        ∃ t, exec (.stashPageDeliver p) s = .next t ∧ (t.stash p).reqs = x.reqs.filter (fun q => q.id != r.id)
          ∧ (t.stash p).lastDeliver = s.time.toNat + 1
          ∧ (∃ beats, t.core r.core = { s.core r.core with ret := (s.core r.core).ret ++ beats } ∧ beats.length = 64
              ∧ ∀ i, i < 64 → ∃ b, beats[i]? = some b ∧ b.addr = r.dst + 64 * i ∧ b.bytes = (r.bytes.drop (64 * i)).take 64 ∧ b.op = some r.op)
          ∧ SameMemories s t ∧ (∀ j, j ≠ r.core → t.core j = s.core j))
      ∧ (early = true ∨ bufferRoom (s.core r.core) false < 64 →
        ∃ t, exec (.stashPageDeliver p) s = .next t ∧ t.stashes = s.stashes ∧ t.cores = s.cores ∧ SameMemories s t))
    ∧ (∀ blk weak bad, blk < 8192 →
      ∃ t, exec (.stashBlockScrub p blk weak bad) s = .next t ∧ FMap.look 0 (t.stash p).scrubbed blk = s.time.toNat
        ∧ FMap.look 0 (t.stash p).reads blk = 0 ∧ SameMemories s t ∧ t.cores = s.cores
        ∧ (weak = false → (t.stash p).physical = x.physical ∧ (t.stash p).spare = x.spare)
        ∧ (∀ ph, weak = true → leastWorn x = some ph → physBlock (t.stash p) blk = ph)
        ∧ (∀ i, bad = some i → t.regBit (.sts p) 0x14 0 = true))
    ∧ (∀ blk, scrubDue s p blk = true ↔ (FMap.look 0 x.scrubbed blk + 86400000000000 ≤ s.time.toNat ∨ 1000000 ≤ FMap.look 0 x.reads blk))

/-! ## Cast-on, bind-off, row counters -/

/-- CAST_CTRL_ARRIVE and CAST_ARRIVE (R275 to R277): with a cast-on under way the package's own arrival counts as no effect, and while a
bind-off runs it waits. The package's arrival, and one that comes over a link or from a node of this package, enters its node: the first
starts the timer, the node collects while a slot of INMASK is missing; with none missing it forwards the arrival to its parent, or, at the
root, releases. An arrival at a slot that is not in INMASK or has arrived already is dropped and counted. -/
def Obligations.ArrivalsCollectAtTheirNode : Prop :=
  ∀ s : State, Live s = true →
    (s.castSt ≠ .idle → ∃ t, exec .castCtrlArrive s = .next t ∧ t.castSt = s.castSt ∧ t.nodes = s.nodes ∧ SameMemories s t ∧ t.cores = s.cores)
    ∧ (s.castSt = .idle → s.bind ≠ none →
      ∃ t, exec .castCtrlArrive s = .next t ∧ t.castDeferred = true ∧ t.castSt = .idle ∧ t.nodes = s.nodes ∧ SameMemories s t ∧ t.cores = s.cores)
    ∧ (∀ (i : Instr) (n slot : Nat) (src : Option CastSrc),
        (src = none → i = .castCtrlArrive ∧ s.castSt = .idle ∧ s.bind = none ∧ n = bits (s.regN .cast 0x40) 8 6 ∧ slot = bits (s.regN .cast 0x40) 16 5) →
        (∀ e, src = some e → i = .castArrive e (nodeLot s n) n slot ∧ n < 64
          ∧ CastComes s e (nodeLot s n) 0 1 (fun p _ => p.nat 16 1 = n ∧ p.nat 17 1 = slot) (.arrive (srcNode e) n slot)) →
      let x := s.node n
      let cfg := nodeCfg s n
      let x1 : Node := { x with st := .collecting, timer := if x.st = .idle then s.time.toNat else x.timer
                                arrivals := x.arrivals ++ (src.map fun e => (slot, e)).toList
                                localSlot := if src = none then some slot else x.localSlot }
      let takes : Prop := (x.st = .idle ∨ x.st = .collecting) ∧ slot < 32 ∧ bitOf (nodeMask s n) slot = true ∧ bitOf x.arrived slot = false
      let missing := nodeMask s n &&& (0xFFFFFFFF ^^^ x1.arrived)
      let msgs := msgsAfter s src (.arrive (src.elim 0 srcNode) n slot)
      let base : DWord := BitVec.ofNat 64 (s.reg64 .cast 0x50)
      let time := s.regN .cast 0x4C % 2 ^ 24
      let done (t : State) : Prop := exec i s = .next t ∧ t.castSt = (if src = none then .arrived else s.castSt) ∧ SameMemories s t
        ∧ t.cores = s.cores ∧ ∀ m, m ≠ n → t.node m = s.node m
      (takes → missing ≠ 0 → ∃ t, done t ∧ t.node n = x1 ∧ t.castMsgs = msgs)
      ∧ (takes → missing = 0 → nodeRoot s n = false → ∃ t, done t ∧ t.node n = { x1 with st := .sent }
          ∧ (bits cfg 28 2 = 1 → t.castMsgs = msgs ++ [(s.wall + 32, .arrive n (bits cfg 8 6) (cfg % 32))])
          ∧ (let up := bits cfg 16 5
            bits cfg 28 2 = 2 → linkUsable s up = true → lotAllowed s up (nodeLot s n) = true →
              ∃ c, (t.link up).ctl0 = (s.link up).ctl0 ++ [c] ∧ c.lot = nodeLot s n ∧ c.due = s.wall + 8))
      ∧ (takes → missing = 0 → nodeRoot s n = true → (∀ e ∈ x1.arrivals, hopCost s e.2 ≤ time) →
          ∃ t, done t ∧ t.node n = { x1 with st := .released }
            ∧ t.castRelease = (if x1.localSlot.isSome then some ⟨s.wall + time / 16, base, n⟩ else s.castRelease)
            ∧ (∀ e ∈ x1.arrivals, ∀ m, e.2 = .node m → (s.wall + 32, .release n m (time - hopCost s e.2) base) ∈ t.castMsgs))
      ∧ (¬takes → ∃ t, exec i s = .next t ∧ t.nodes = s.nodes ∧ t.reg .cast 0x74 = satInc (s.reg .cast 0x74)
          ∧ SameMemories s t ∧ t.cores = s.cores))

/-- CAST_RELEASE, CAST_ABORT, CASTON_NODE_TIMEOUT and NOTICE (R278, R279, R283, R284, R464): a release reaches a node that waits for it,
becomes due at this package after the whole ticks that remain, and goes on to every child with what its hop leaves; with a child out of
reach the node fails as CASTON_SHORT, and a replayed one fails it as CASTON_LATE; an abort fails its node; a node that collects past its
timeout fails with its slots missing; a notice to a released package of the job stops it, and one to a node that waits fails it. -/
def Obligations.ReleasesAbortsAndNotices : Prop :=
  ∀ (s : State) (src : CastSrc) (n : Nat), Live s = true → n < 64 → (s.node n).st ≠ .disabled →
    let x := s.node n
    let lot := nodeLot s n
    let kept (t : State) : Prop := SameMemories s t ∧ t.cores = s.cores
    let others (t : State) : Prop := ∀ m, m ≠ n → t.node m = s.node m
    let releases (r : Nat) (base : DWord) (late : Bool) : Prop :=
      CastComes s src lot 1 2 (fun p rpl => p.nat 16 1 = n ∧ p.nat 20 3 = r ∧ p.nat 24 8 = base.toNat ∧ rpl = late) (.release (srcNode src) n r base)
    (∀ r base, releases r base false → x.st = .sent → (∀ e ∈ x.arrivals, hopCost s e.2 ≤ r) →
      ∃ t, exec (.castRelease src lot n r base false) s = .next t ∧ t.node n = { x with st := .released }
        ∧ t.castRelease = (if x.localSlot.isSome then some ⟨s.wall + r / 16, base, n⟩ else s.castRelease)
        ∧ (∀ e ∈ x.arrivals, ∀ m, e.2 = .node m → (s.wall + 32, .release n m (r - hopCost s e.2) base) ∈ t.castMsgs) ∧ others t ∧ kept t)
    ∧ (∀ r base, releases r base false → x.st = .sent → (∃ e ∈ x.arrivals, r < hopCost s e.2) →
      ∃ t, exec (.castRelease src lot n r base false) s = .next t ∧ (t.node n).st = .failed ∧ t.regBit .cast 0x14 1 = true ∧ others t ∧ kept t)
    ∧ (∀ r base, releases r base true → x.st = .sent →
      ∃ t, exec (.castRelease src lot n r base true) s = .next t ∧ (t.node n).st = .failed ∧ t.regBit .cast 0x14 2 = true ∧ others t ∧ kept t)
    ∧ (∀ r base late, releases r base late → x.st ≠ .sent →
      ∃ t, exec (.castRelease src lot n r base late) s = .next t ∧ t.nodes = s.nodes ∧ t.castRelease = s.castRelease ∧ kept t)
    ∧ (CastComes s src lot 1 3 (fun p _ => p.nat 16 1 = n) (.abort (srcNode src) n) →
      ∃ t, exec (.castAbort src lot n) s = .next t ∧ (t.node n).st = .failed
        ∧ (x.localSlot.isSome = true → s.castSt = .arrived → t.castSt = .failed) ∧ others t ∧ kept t)
    ∧ (x.st = .collecting → s.regN .cast 0x48 % 2 ^ 16 * 1000 ≤ s.time.toNat - x.timer →
      ∃ t, exec (.castonNodeTimeout n) s = .next t ∧ (t.node n).st = .failed ∧ t.regBit .cast 0x14 0 = true
        ∧ (s.regBit .cast 0x60 31 = false → t.regN .cast 0x60 = 2 ^ 31 + 2 ^ 16 + n * 2 ^ 8 ∧ t.regN .cast 0x64 = nodeMissing s n) ∧ others t ∧ kept t)
    ∧ (∀ b : NoticeBody, b.node = n → CastComes s src lot 0 4 (fun p _ => noticeOf p = b) (.notice (srcNode src) b) →
        let comes : Instr := .notice src lot b
        (x.noticed = true ∨ x.st = .released → s.castSt = .released → jobLot s = some lot →
          ∃ t, exec comes s = .next t ∧ t.regBit .flt 0x14 0 = true ∧ (t.node n).noticed = true ∧ others t ∧ kept t)
        ∧ (x.noticed = false → x.st = .sent ∨ x.st = .collecting → nodeRoot s n = false →
          ∃ t, exec comes s = .next t ∧ (t.node n).st = .failed ∧ (t.node n).noticed = true
            ∧ (x.localSlot.isSome = true → s.castSt = .arrived → t.castSt = .failed) ∧ others t ∧ kept t))

/-- LOCAL_RELEASE (R280, R281): at its tick PTC takes the release's base, the cast-on shows RELEASED and the job runs; every enabled core
starts with the STEP of PLAN_STEP_INIT and an empty digest chain, the records of the panels are cleared, and a launch armed before it is
checked against the new PTC. A stopped package fails instead, and PTC stays. CAST_REARM, BIND_OFF_START and BIND_OFF_COMPLETE (R276, R285,
R289): REARM frees the nodes that released or failed, unless a stream runs; a bind-off starts once at a time, and completes after its quiet
time with every row counter 0, the nodes of its lot disabled and the pattern unloaded. -/
def Obligations.TheReleaseRearmAndBindOff : Prop :=
  (∀ (s : State) (p : PendingRelease), Live s = true → s.castRelease = some p → p.due ≤ s.wall →
      (s.flt.stopped = false →
        ∃ t, exec .localRelease s = .next t ∧ t.ptc = p.base ∧ t.castSt = .released ∧ t.jobLive = true ∧ t.castRelease = none
          ∧ (∀ k ∈ allCores s, (t.core k).step = BitVec.ofNat 64 (s.reg64 .plan 0x60) ∧ (t.core k).digestN = 0) ∧ t.level = nextLevel s
          ∧ t.windows = [] ∧ t.reg64 .cast 0x58 = s.time.toNat ∧ t.regBit .cast 0x20 1 = true ∧ t.flt.jobBase = p.base
          ∧ (∀ q, q < s.fuses.panels → t.regN (.num q) 0x44 = 0 ∧ t.regN (.sa q) 0x40 = 0 ∧ t.regN (.eng q) 0x40 = 0 ∧ t.regN (.skn q) 0x48 = 0
            ∧ t.regN (.row q) 0x54 = 0 ∧ t.regN (.ni q) 0x40 = 0 ∧ t.regN (.pwr q) 0x70 = 0)
          ∧ (∀ k l, (s.core k).stream.launch = some l → l.unchecked = true →
              (p.base.toNat + 64 ≤ l.start → (t.core k).stream.launch = some { l with unchecked := false })
              ∧ (l.start < p.base.toNat + 64 → (t.core k).stream.launch = none ∧ (t.core k).stream.st = .faulted))
          ∧ t.skein = s.skein ∧ SameStores s t)
      ∧ (s.flt.stopped = true →
        ∃ t, exec .localRelease s = .next t ∧ t.ptc = s.ptc ∧ t.castSt = .failed ∧ (t.node p.node).st = .failed ∧ SameMemories s t
          ∧ t.cores = s.cores))
  ∧ (∀ s : State, Live s = true →
      ((∀ p, s.castRelease = some p → s.wall < p.due) → ∃ t, exec .localRelease s = .next t ∧ t.ptc = s.ptc ∧ t.castSt = s.castSt
          ∧ SameMemories s t ∧ t.cores = s.cores)
      ∧ (anyRunning s = true → ∃ t, exec .castRearm s = .next t ∧ t.castSt = s.castSt ∧ t.nodes = s.nodes ∧ SameMemories s t ∧ t.cores = s.cores)
      ∧ (anyRunning s = false →
        ∃ t, exec .castRearm s = .next t ∧ t.castSt = .idle ∧ t.castRelease = none ∧ (∀ n, n < 64 → t.node n = (s.node n).rearmed)
          ∧ t.reg .cast 0x60 = 0 ∧ SameMemories s t ∧ t.cores = s.cores)
      ∧ (∀ lot, s.bind = none →
        ∃ t, exec (.bindOffStart lot) s = .next t ∧ t.bind = some ⟨lot % 2 ^ 16, if bindQuiesced s then some s.time.toNat else none⟩
          ∧ SameMemories s t ∧ t.cores = s.cores)
      ∧ (∀ lot b, s.bind = some b → ∃ t, exec (.bindOffStart lot) s = .next t ∧ t.bind = some b ∧ SameMemories s t ∧ t.cores = s.cores)
      ∧ (∀ b t0, s.bind = some b → b.quietFrom = some t0 → s.regN .cast 0x6C % 2 ^ 16 * 1000 ≤ s.time.toNat - t0 → queuesHold s b.lot = false →
          s.castDeferred = false →
        ∃ t, exec .bindOffComplete s = .next t ∧ t.bind = none ∧ t.jobLive = false ∧ t.shared = [] ∧ (∀ k, (t.core k).counters = [])
          ∧ (∀ n, n < 64 → nodeLot s n = b.lot → t.node n = {} ∧ t.regBit .cast (0x100 + 16 * n) 31 = false)
          ∧ (jobLot s = some b.lot → t.flt.needBind = false) ∧ (jobLot s ≠ some b.lot → jobLot s ≠ none → t.flt.needBind = s.flt.needBind)
          ∧ t.boot.loaded = false ∧ t.regBit .cast 0x20 0 = true ∧ t.skein = s.skein ∧ SameStores s t)
      ∧ (∀ b, s.bind = some b → (∀ t0, b.quietFrom = some t0 → s.time.toNat - t0 < s.regN .cast 0x6C % 2 ^ 16 * 1000 ∨ queuesHold s b.lot = true) →
          b.quietFrom ≠ none →
        ∃ t, exec .bindOffComplete s = .next t ∧ t.bind = some b ∧ t.boot = s.boot ∧ t.cores = s.cores ∧ SameMemories s t))

/-- ROW_VALUE_WRITE (R267, R272): in inspect mode the write is an error and changes no counter; in release mode the word is a SET by the host
of the selected counter, shared or of an enabled core, and is applied at the end of the tick after the write, behind every other operation
of that tick; a selection of no counter is counted as no effect. -/
def Obligations.TheHostSetsASelectedCounter : Prop :=
  (∀ (s : State) (p : Nat) (w : Word), Live s = true → p < s.fuses.panels →
    let sel := s.regN (.row p) 0x44
    let core := bits sel 12 9
    (s.regN (.row p) 0x40 % 2 = 0 →
      ∃ t, exec (.rowValueWrite p w) s = .next t ∧ t.regBit (.row p) 0x14 2 = true ∧ t.shared = s.shared ∧ t.cores = s.cores
        ∧ t.rowSets = s.rowSets ∧ SameMemories s t)
    ∧ (s.regN (.row p) 0x40 % 2 = 1 →
      ∃ t, exec (.rowValueWrite p w) s = .next t ∧ t.shared = s.shared ∧ t.cores = s.cores ∧ t.regs = s.regs ∧ SameMemories s t
        ∧ t.rowSets = s.rowSets ++ (if bitOf sel 31 then [(s.wall, coreKey p 0, 2 ^ 12 + sel % 2 ^ 12, w)]
            else if slotEnabled s p core && decide (sel % 2 ^ 12 < 64) then [(s.wall, coreKey p core, sel % 2 ^ 12, w)] else [])))
  ∧ (∀ (s : State) (w0 k ctr : Nat) (v : Word), s.pending = [] → s.pins.perst = false → s.rowSets = [(w0, k, ctr, v)] →
      (w0 < s.wall → ∃ t, step s = .next t ∧ (counterOf t k ctr).value = v ∧ (counterOf t k ctr).kind = 4 ∧ t.rowSets = []
        ∧ ((∀ e ∈ s.cores, e.2.inflight = []) → s.rowOps = [] → bitOf ctr 12 = true →
            (∀ j, (t.core j).counters = (s.core j).counters)
            ∧ ∀ m, m ≠ 4096 * (k / 288) + ctr % 4096 → FMap.look {} t.shared m = FMap.look {} s.shared m))
      ∧ (s.wall ≤ w0 → ∃ t, step s = .next t ∧ t.rowSets = s.rowSets))

/-! ## Ply links and the network -/

/-- PLY_EN_WRITE, TRAINING_DONE, IDENT_EXCHANGE and GAUGING_DONE (R300 to R305): EN takes a DISABLED link to TRAINING; training done, it sends
its identity; identities that both ends accept take it to GAUGING, or after a retrain let it go on; a refused peer, or the identity 0, fails
it with cause 2; a gauge within its limits takes it UP with the flow figures of R300, one beyond them fails it with cause 3 or 4, and after a
retrain a gauge that has moved is an error; clearing EN disables it from any state. TRAINING_TIMEOUT, GRACE_EXPIRE, LANE_LOCK_LOST,
PLY_RETRAIN and PLY_REGAUGE (R299, R302 to R306): a link that trains for 250 ms or retrains past its grace fails with cause 1 or 7; a link
that is UP leaves for RETRAIN with cause 5 or 8, or for GAUGING; one that is not UP takes no retrain. -/
def Obligations.ALinkTrainsFailsAndRetrains : Prop :=
  (∀ (s : State) (l : Nat), Live s = true → writable s (.ply l) = true →
      let x := s.link l
      let cause (t : State) : Nat := bits (t.regN (.ply l) 0x44) 8 4
      let now := s.time.toNat
      (∀ w : Word, bitOf w.toNat 0 = true → x.st = .disabled →
        ∃ t, exec (.plyEnWrite l w) s = .next t ∧ t.link l = { st := .training, since := now } ∧ LinkFrame s t l)
      ∧ (∀ w : Word, bitOf w.toNat 0 = true → x.st ≠ .disabled → ∃ t, exec (.plyEnWrite l w) s = .next t ∧ t.links = s.links ∧ LinkFrame s t l)
      ∧ (∀ w : Word, bitOf w.toNat 0 = false → x.st ≠ .disabled →
        ∃ t, exec (.plyEnWrite l w) s = .next t ∧ (t.link l).st = .disabled ∧ SameMemories s t ∧ CoresKept l s t)
      ∧ (x.st = .training → ∃ t, exec (.trainingDone l) s = .next t
          ∧ t.link l = { x with st := .ident, since := now, identOut := BitVec.ofNat 64 (s.fuses.selfId.toNat / 32 * 32 + l % 32) } ∧ LinkFrame s t l)
      ∧ (x.st = .retrain → ∃ t, exec (.trainingDone l) s = .next t
          ∧ t.link l = { x with trained := true, identOut := BitVec.ofNat 64 (s.fuses.selfId.toNat / 32 * 32 + l % 32) } ∧ LinkFrame s t l)
      ∧ (∀ peer : DWord, s.reg64 (.ply l) 0x48 = peer.toNat → peer ≠ 0 →
        (x.st = .ident → (∃ t, exec (.identExchange l peer true) s = .next t ∧ t.link l = { x with st := .gauging, since := now }
            ∧ t.reg64 (.ply l) 0x50 = peer.toNat ∧ LinkFrame s t l)
          ∧ ∃ t, exec (.identExchange l peer false) s = .next t ∧ t.link l = x ∧ t.reg64 (.ply l) 0x50 = peer.toNat ∧ LinkFrame s t l)
        ∧ (x.st = .retrain → x.trained = true → x.matched = false → ∃ t, exec (.identExchange l peer true) s = .next t
            ∧ t.link l = { x with matched := true } ∧ LinkFrame s t l))
      ∧ (∀ (peer : DWord) b, x.st = .ident ∨ (x.st = .retrain ∧ x.trained = true ∧ x.matched = false) →
          s.reg64 (.ply l) 0x48 ≠ peer.toNat ∨ peer = 0 →
        ∃ t, exec (.identExchange l peer b) s = .next t ∧ (t.link l).st = .failed ∧ cause t = 2 ∧ t.reg64 (.ply l) 0x50 = peer.toNat
          ∧ t.regBit (.ply l) 0x14 1 = true ∧ SameMemories s t ∧ CoresKept l s t)
      ∧ (∀ g, x.st = .gauging →
        let n := nRt s g
        let ackUs := bits (s.regN (.ply l) 0x40) 16 7
        (ceilDiv n 20 + 2 ≤ 120 → n * 134 + 50000 < ackUs * 100000 →
          ∃ t, exec (.gaugingDone l g) s = .next t ∧ (t.link l).st = .up ∧ (t.link l).slot = 0 ∧ (t.link l).since = now
            ∧ t.regN (.ply l) 0x58 = g % 2 ^ 24 ∧ t.regN (.ply l) 0x5C % 4096 = (n + 32) % 4096
            ∧ bits (t.regN (.ply l) 0x5C) 24 7 = ceilDiv n 20 + 2 ∧ t.regBit (.ply l) 0x5C 31 = decide (1984 < n + 32) ∧ LinkFrame s t l)
        ∧ (120 < ceilDiv n 20 + 2 → ∃ t, exec (.gaugingDone l g) s = .next t ∧ (t.link l).st = .failed ∧ cause t = 3
            ∧ t.regBit (.ply l) 0x14 2 = true ∧ SameMemories s t ∧ CoresKept l s t)
        ∧ (ceilDiv n 20 + 2 ≤ 120 → ackUs * 100000 ≤ n * 134 + 50000 → ∃ t, exec (.gaugingDone l g) s = .next t ∧ (t.link l).st = .failed
            ∧ cause t = 4 ∧ t.regBit (.ply l) 0x14 2 = true ∧ SameMemories s t ∧ CoresKept l s t))
      ∧ (∀ g, x.st = .retrain → x.matched = true →
        ∃ t, exec (.gaugingDone l g) s = .next t ∧ (t.link l).st = .up ∧ (t.link l).slot = 0 ∧ (t.link l).data.replay = x.data.unacked
          ∧ t.regN (.ply l) 0x58 = s.regN (.ply l) 0x58
          ∧ ((g + 32 < s.regN (.ply l) 0x58 ∨ s.regN (.ply l) 0x58 + 32 < g) → t.regBit (.ply l) 0x14 3 = true) ∧ LinkFrame s t l))
  ∧ (∀ (s : State) (l : Nat), Live s = true → writable s (.ply l) = true →
      let x := s.link l
      let cause (t : State) : Nat := bits (t.regN (.ply l) 0x44) 8 4
      (x.st = .training ∨ x.st = .ident → 250000000 ≤ s.time.toNat - x.since →
        ∃ t, exec (.trainingTimeout l) s = .next t ∧ (t.link l).st = .failed ∧ cause t = 1
          ∧ t.regBit (.ply l) 0x14 2 = true ∧ SameMemories s t ∧ CoresKept l s t
          ∧ (x.dataQ = [] → x.into = none → ∀ j, j ≠ l → (∀ d ∈ (s.link j).dataQ, d.from_ ≠ some l) → (s.link j).into ≠ some (.out l) →
              t.link j = s.link j))
      ∧ (x.st = .retrain → bits (s.regN (.ply l) 0x40) 24 8 * 1000000 ≤ s.time.toNat - x.since →
        ∃ t, exec (.graceExpire l) s = .next t ∧ (t.link l).st = .failed ∧ cause t = 7 ∧ SameMemories s t
          ∧ (s.castSt = .released → t.regBit (.ply l) 0x14 0 = true)
          ∧ (t.link l).data.rx = [] ∧ (t.link l).data.unacked = [] ∧ (t.link l).dataQ = [] ∧ (t.link l).ctl0 = [] ∧ (t.link l).ctl1 = []
          ∧ CoresKept l s t)
      ∧ (x.st = .up →
        (∃ t, exec (.laneLockLost l) s = .next t ∧ (t.link l).st = .retrain ∧ cause t = 5 ∧ (t.link l).data = x.data
          ∧ t.reg (.ply l) 0x88 = satInc (s.reg (.ply l) 0x88) ∧ LinkFrame s t l)
        ∧ (∃ t, exec (.plyRetrain l) s = .next t ∧ (t.link l).st = .retrain ∧ cause t = 8 ∧ (t.link l).data = x.data
          ∧ t.reg (.ply l) 0x88 = satInc (s.reg (.ply l) 0x88) ∧ LinkFrame s t l)
        ∧ (∃ t, exec (.plyRegauge l) s = .next t ∧ (t.link l).st = .gauging ∧ LinkFrame s t l))
      ∧ (x.st ≠ .up →
        (∃ t, exec (.plyRetrain l) s = .next t ∧ t.links = s.links ∧ SameMemories s t ∧ t.cores = s.cores)
        ∧ (∃ t, exec (.plyRegauge l) s = .next t ∧ t.links = s.links ∧ SameMemories s t ∧ t.cores = s.cores)))

/-- FRAME_RECEIVE and ACK_TIMER_EXPIRE (R293, R296 to R299, R322): a frame is read back from its 268 bytes as it was sent, and its CRC passes.
On a link that is UP a frame with a bad CRC is counted and dropped, and the 32nd in a row starts a retrain; uncorrectable codewords are
counted; a frame of the expected number joins its class's receive buffer and is acknowledged, one before it is a duplicate that is
acknowledged again, one ahead asks for a replay, one that finds the buffer full is an error; an acknowledgement drops the frames up to it, a
NAK replays the rest; an unacknowledged class is replayed when its timer has run. FRAME_SLOT (R293, R295, R297, R298): every slot of a link
that is UP carries one frame, with the acknowledgement of one class and this end's flow bits; a control slot carries the oldest control
packet that is ready, other slots the frame of the data packet in turn, or a replay; with nothing to send an idle frame. PLY_LOT_WRITE (R320):
a free entry takes a lot, a valid one is not overwritten, and lot 0 is never written. -/
def Obligations.FramesAreAdmittedInOrderAndSlotsSend : Prop :=
  (∀ f : SentFrame, f.cls < 4 → f.seq < 4096 → f.ackClass < 4 → f.ack < 4096 → f.valid < 512 → f.xoff < 8 → f.payload.length = 256 →
      f.wire.length = 268 ∧ crcOk f.wire = true ∧ readFrame f.wire = f)
  ∧ (∀ (s : State) (l : Nat) (bytes : List Byte) (fec : Nat), Live s = true → writable s (.ply l) = true → (s.link l).st = .up →
      let x := s.link l
      let f := readFrame bytes
      let c := f.cls - 1
      let v := x.cls c
      let go : Instr := .frameReceive l bytes fec
      let counted (t : State) : Prop := t.reg (.ply l) 0x84 = if fec = 0 then s.reg (.ply l) 0x84 else satInc (s.reg (.ply l) 0x84) fec
      (crcOk bytes = false → x.badRun + 1 < 32 →
        ∃ t, exec go s = .next t ∧ t.link l = { x with badRun := x.badRun + 1 } ∧ t.reg (.ply l) 0x70 = satInc (s.reg (.ply l) 0x70)
          ∧ counted t ∧ LinkFrame s t l)
      ∧ (crcOk bytes = false → 32 ≤ x.badRun + 1 →
        ∃ t, exec go s = .next t ∧ (t.link l).st = .retrain ∧ bits (t.regN (.ply l) 0x44) 8 4 = 6 ∧ counted t ∧ LinkFrame s t l)
      ∧ (crcOk bytes = true → f.ackClass = 0 → 1 ≤ f.cls → f.cls ≤ 3 → v.expected < 4096 →
        (f.seq = v.expected → v.used < classDepth c → x.into = none →
          ∃ t, exec go s = .next t ∧ ((t.link l).cls c).expected = (f.seq + 1) % 4096 ∧ ((t.link l).cls c).used = v.used + 1
            ∧ ((t.link l).cls c).rx = v.rx ++ [⟨f.sop, f.eop, f.rpl, f.payload.take f.valid⟩] ∧ ((t.link l).cls c).ackDue = true
            ∧ (t.link l).badRun = 0 ∧ (∀ d, d < 3 → d ≠ c → (t.link l).cls d = x.cls d) ∧ counted t ∧ LinkFrame s t l)
        ∧ (f.seq = v.expected → classDepth c ≤ v.used → x.into = none →
          ∃ t, exec go s = .next t ∧ (t.link l).cls c = v ∧ t.regBit (.ply l) 0x14 5 = true ∧ LinkFrame s t l)
        ∧ (1 ≤ (v.expected + 4096 - f.seq) % 4096 → (v.expected + 4096 - f.seq) % 4096 ≤ 2048 → x.into = none →
          ∃ t, exec go s = .next t ∧ (t.link l).cls c = { v with again := true } ∧ t.reg (.ply l) 0x78 = satInc (s.reg (.ply l) 0x78)
            ∧ LinkFrame s t l)
        ∧ (2048 < (v.expected + 4096 - f.seq) % 4096 → v.nakGap = false → x.into = none →
          ∃ t, exec go s = .next t ∧ (t.link l).cls c = { v with nakDue := true, nakGap := true } ∧ LinkFrame s t l))
      ∧ (∀ a pre post y, crcOk bytes = true → f.cls = 0 → f.ackClass = a + 1 → f.ackClass ≤ 3 → (x.cls a).unacked = pre ++ y :: post →
          y.seq = f.ack → (∀ z ∈ pre, z.seq ≠ f.ack) →
        ∃ t, exec go s = .next t ∧ ((t.link l).cls a).unacked = post ∧ (f.nak = true → ((t.link l).cls a).replay = post
            ∧ t.reg (.ply l) 0x74 = satInc (s.reg (.ply l) 0x74)) ∧ (∀ d, d < 3 → d ≠ a → (t.link l).cls d = x.cls d) ∧ LinkFrame s t l)
      ∧ (∀ d, d < 3 → (x.cls d).unacked ≠ [] → bits (s.regN (.ply l) 0x40) 16 7 * 1000 ≤ s.time.toNat - (x.cls d).timer →
        ∃ t, exec (.ackTimerExpire l d) s = .next t ∧ (t.link l).cls d = { x.cls d with replay := (x.cls d).unacked, timer := s.time.toNat }
          ∧ LinkFrame s t l))
  ∧ (∀ (s : State) (l : Nat), Live s = true → writable s (.ply l) = true →
      let x := s.link l
      let sends (t : State) (g : SentFrame) : Prop := exec (.frameSlot l) s = .next t ∧ (t.link l).sent = some g ∧ (t.link l).slot = x.slot + 1
        ∧ SameMemories s t ∧ t.cores = s.cores
      let noReplay : Prop := x.data.replay = [] ∧ x.vl0.replay = [] ∧ x.vl1.replay = []
      (x.st = .up → ∃ t g, sends t g ∧ match ackClass x with
        | some c => g.ackClass = c + 1 ∧ g.ack = ((x.cls c).expected + 4095) % 4096 ∧ g.nak = (x.cls c).nakDue
        | none => g.ackClass = 0)
      ∧ (x.st = .up → x.dataQ = [] → x.ctl0 = [] → x.ctl1 = [] → noReplay →
        ∃ t g, sends t g ∧ g.cls = 0 ∧ g.payload = [] ∧ g.xoff = b2n x.data.xoff + 2 * b2n x.vl0.xoff + 4 * b2n x.vl1.xoff ∧ LinkFrame s t l)
      ∧ (∀ d f fs, x.st = .up → x.slot % 20 ≠ 19 → noReplay → x.dataQ = [d] → d.due ≤ s.wall → d.frames = f :: fs → d.from_ = none →
          peerXoff s l 0 = false → paceFull s l x = false → x.data.unacked.length < 2048 →
        ∃ t g, sends t g ∧ g.cls = 1 ∧ g.seq = x.data.nextSeq ∧ g.sop = f.sop ∧ g.eop = f.eop ∧ g.valid = f.valid ∧ g.payload = f.payload
          ∧ g.rpl = d.old ∧ (t.link l).data.unacked = x.data.unacked ++ [{ f with seq := x.data.nextSeq }]
          ∧ (t.link l).data.nextSeq = (x.data.nextSeq + 1) % 4096
          ∧ (t.link l).dataQ = (if fs = [] ∧ d.more = false then [] else [{ d with started := true, frames := fs }])
          ∧ (∀ p, d.panelBuf = some p → niUsed t p = niUsed s p - b2n (fs.isEmpty && !d.more)) ∧ LinkFrame s t l)
      ∧ (∀ p, x.st = .up → x.slot % 20 = 19 → noReplay → x.ctl0 = [p] → p.due ≤ s.wall → peerXoff s l 1 = false → x.vl0.unacked.length < 128 →
        let wait := 16 * (s.wall - p.due)
        ∃ t g, sends t g ∧ g.cls = 2 ∧ g.seq = x.vl0.nextSeq ∧ g.valid = 64 ∧ (t.link l).ctl0 = [] ∧ (t.link l).vl0.nextSeq = (x.vl0.nextSeq + 1) % 4096
          ∧ (p.release = none → g.payload = p.bytes ∧ g.rpl = p.old)
          ∧ (∀ r, p.release = some r → g.payload = p.bytes.take 20 ++ leBytes 4 (r - wait) ++ p.bytes.drop 24 ∧ g.rpl = (p.old || decide (r < wait)))
          ∧ LinkFrame s t l)
      ∧ (∀ f fs, x.st = .up → x.slot % 20 ≠ 19 → x.data.replay = f :: fs → peerXoff s l 0 = false → paceFull s l x = false →
        ∃ t g, sends t g ∧ g.cls = 1 ∧ g.seq = f.seq ∧ g.rpl = true ∧ g.payload = f.payload ∧ (t.link l).data.replay = fs
          ∧ (t.link l).data.nextSeq = x.data.nextSeq ∧ LinkFrame s t l)
      ∧ (x.st ≠ .up → ∃ t, exec (.frameSlot l) s = .next t ∧ t.links = s.links)
      ∧ (∀ e (w : Word), e < 4 → w.toNat % 2 ^ 16 ≠ 0 → bitOf w.toNat 31 = true → s.regBit (.ply l) (0x60 + 4 * e) 31 = false →
        ∃ t, exec (.plyLotWrite l e w) s = .next t ∧ t.regN (.ply l) (0x60 + 4 * e) = 2 ^ 31 + w.toNat % 2 ^ 16
          ∧ lotAllowed t l (w.toNat % 2 ^ 16) = true ∧ t.links = s.links ∧ SameMemories s t ∧ t.cores = s.cores)
      ∧ (∀ e (w : Word), e < 4 → w.toNat % 2 ^ 16 ≠ 0 → bitOf w.toNat 31 = false →
        let old := s.regN (.ply l) (0x60 + 4 * e)
        let held : Bool := bitOf old 31 && binding s (old % 2 ^ 16)
        ∃ t, exec (.plyLotWrite l e w) s = .next t ∧ t.regBit (.ply l) (0x60 + 4 * e) 31 = held
          ∧ (held = true → t.regBit (.ply l) (0x60 + 4 * e) 30 = true) ∧ t.links = s.links ∧ SameMemories s t ∧ t.cores = s.cores)
      ∧ (∀ e (w : Word), e < 4 → w.toNat % 2 ^ 16 = 0 ∨ (bitOf w.toNat 31 = true ∧ s.regBit (.ply l) (0x60 + 4 * e) 31 = true) →
        ∃ t, exec (.plyLotWrite l e w) s = .next t ∧ t.regs = s.regs ∧ t.links = s.links ∧ SameMemories s t ∧ t.cores = s.cores))

/-- FAB_CTX_ACTIVATE and FAB_TBL_WRITE (R313): a context becomes valid only with a lot of its own and ranges whose entries are valid, in
ascending order of rank and with no route bits past their hops, else it is an error and stays invalid; VALID = 0 makes it invalid; a table
entry in a valid context's range is not written. -/
def Obligations.ContextsAndTablesOfTheFabric : Prop :=
  ∀ (s : State) (w : Word), Live s = true →
    let lot := w.toNat % 2 ^ 16
    (∀ x, x < 4 →
      let good : Prop := lot ≠ 0 ∧ (∀ y, y < 4 → y ≠ x → ctxValid s y = true → ctxLot s y ≠ lot)
        ∧ rangeReady s 0 x = true ∧ rangeReady s 1 x = true ∧ (∀ e ∈ ctxEntries s 0 x, entryRoute e / 2 ^ (5 * entryHops e) = 0)
      let others (t : State) : Prop := (∀ y, y < 4 → y ≠ x → ctxValid t y = ctxValid s y ∧ ctxLot t y = ctxLot s y) ∧ SameMemories s t ∧ t.cores = s.cores
      (bitOf w.toNat 31 = true → good →
        ∃ t, exec (.fabCtxActivate x w) s = .next t ∧ ctxValid t x = true ∧ ctxLot t x = lot ∧ others t)
      ∧ (bitOf w.toNat 31 = true → ¬good →
        ∃ t, exec (.fabCtxActivate x w) s = .next t ∧ ctxValid t x = false ∧ t.regBit .fab 0x14 0 = true ∧ others t)
      ∧ (bitOf w.toNat 31 = false → ∃ t, exec (.fabCtxActivate x w) s = .next t ∧ ctxValid t x = false ∧ ctxLot t x = lot ∧ others t))
    ∧ (let kind := s.regN .fab 0x90 / 2 ^ 31
       let ix := s.regN .fab 0x90 % 2 ^ 13
      (entryLocked s kind ix = true → ∃ t, exec (.fabTblWrite w) s = .next t ∧ t.rankTables = s.rankTables ∧ SameMemories s t ∧ t.cores = s.cores)
      ∧ (entryLocked s kind ix = false →
        ∃ t, exec (.fabTblWrite w) s = .next t ∧ tableAt t kind ix = [s.reg .fab 0xA0, s.reg .fab 0xA4, s.reg .fab 0xA8, w]
          ∧ (∀ kd j, kd < 2 → j < 8192 → kd ≠ kind ∨ j ≠ ix → tableAt t kd j = tableAt s kd j) ∧ SameMemories s t ∧ t.cores = s.cores))

/-- INJECTION_GRANT (R310): a granted RANK transfer takes a packet buffer and occupies its injection port for its N ticks; its packets of 128
beats, the last shorter and with LAST and the signal, go to their first link, each buffer freed with its packet; a header is read as it was
written (R309). DATA_PACKET (R315, R317, R228): the packet at the front of a receive buffer is dropped and counted or recorded when it fails
a check; one for a virtual core of this package waits until the external part has room for all of it, and then lands granule by granule as
its frames come, the signal with the last beat; any other goes out on its next link with NEXT one higher, 24 ns behind its first frame. FW_MSG
(R316): a message for this package is delivered, any other goes on with its TTL one lower or is dropped. -/
def Obligations.PacketsAreGrantedDroppedAndDelivered : Prop :=
  (∀ s : State, Live s = true →
    (∀ c k o, coreOf s c = some k → rankWaiter (s.core k) = some o →
      let n := (fld o.desc 0).extent
      let now := s.ptc.toNat
      let granted : Prop := clockRuns s = true ∧ (∀ x ∈ (s.core k).port, x.2.2 ≤ now ∨ now + n ≤ x.2.1) ∧ niUsed s (k / 288) < 32
        ∧ (o.eng = 5 → 4 ≤ o.age)
      (∀ e, granted → rankEntry s ((rankTarget o).1 / 2 ^ 28) = some e →
        ∃ t, exec (.injectionGrant c) s = .next t ∧ (t.core k).port = (s.core k).port ++ [(o.eng, now, now + n)]
          ∧ niUsed t (k / 288) = niUsed s (k / 288) + 1
          ∧ (t.core k).inflight = (s.core k).inflight.map (fun x => if x.id = o.id then { x with work := .rank (some (e, 0)) false } else x)
          ∧ SameMemories s t ∧ (∀ j, j ≠ k → t.core j = s.core j))
      ∧ (¬granted → ∃ t, exec (.injectionGrant c) s = .next t ∧ t.cores = s.cores ∧ t.niBufs = s.niBufs ∧ SameMemories s t))
    ∧ (∀ l f rest, DataFront s l f rest →
      let h := headOf f.bytes
      let drops (t : State) : Prop := exec (.dataPacket l) s = .next t ∧ SameMemories s t ∧ t.cores = s.cores
        ∧ (f.eop = true → rest = [] → (t.link l).data.rx = [] ∧ (t.link l).into = none ∧ (t.link l).data.used = (s.link l).data.used - 1)
      (f.sop = true → lotAllowed s l h.lot = false → ∃ t, drops t ∧ t.regBit (.ply l) 0x14 4 = true)
      ∧ (f.sop = true → lotAllowed s l h.lot = true → discards s h.lot = true → ∃ t, drops t ∧ t.reg .cast 0x70 = satInc (s.reg .cast 0x70))
      ∧ (DataPasses s l f → pktOk f.bytes = false → ∃ t, drops t ∧ t.regBit (.ni (l / 4)) 0x14 0 = true)
      ∧ (DataPasses s l f → pktOk f.bytes = true → h.next = h.hops →
        (jobLot s ≠ some h.lot ∨ jobRank s ≠ h.dstRank → ∃ t, drops t ∧ t.regBit (.ni (l / 4)) 0x14 1 = true)
        ∧ (jobLot s = some h.lot → jobRank s = h.dstRank →
          (physOf s h.dstVcore = none → ∃ t, drops t ∧ t.regBit (.ni (l / 4)) 0x14 2 = true)
          ∧ (∀ k, physOf s h.dstVcore = some k → coreOn s k = true →
            (bufferRoom (s.core k) false < 4 * h.granules → ∃ t, exec (.dataPacket l) s = .next t ∧ t.links = s.links ∧ t.cores = s.cores)
            ∧ (4 * h.granules ≤ bufferRoom (s.core k) false → rest = [] → f.eop = false → f.bytes.length = 256 →
              ∃ t, exec (.dataPacket l) s = .next t ∧ t.core k = { s.core k with extHeld := (s.core k).extHeld + 4 * h.granules }
                ∧ (t.link l).into = some (.core k h.granules h.dbeat (f.bytes.drop 32) h.sig (BitVec.ofNat 32 (h.srcRank * 2 ^ 11 + h.srcVcore)))
                ∧ (t.link l).data.rx = [] ∧ (t.link l).data.used = (s.link l).data.used - 1
                ∧ SameMemories s t ∧ ∀ j, j ≠ k → t.core j = s.core j))))
      ∧ (DataPasses s l f → pktOk f.bytes = true → h.next ≠ h.hops →
        let out := hopLink h.route h.next
        (linkUsable s out = false → ∃ t, drops t ∧ t.regBit (.ni (l / 4)) 0x14 3 = true
          ∧ (linkPresent s out = true → t.reg (.ply out) 0x8C = satInc (s.reg (.ply out) 0x8C)))
        ∧ (linkUsable s out = true → lotAllowed s out h.lot = false → ∃ t, drops t ∧ t.regBit (.ply out) 0x14 4 = true)
        ∧ (linkUsable s out = true → lotAllowed s out h.lot = true → rest = [] → out ≠ l →
          ∃ t d, exec (.dataPacket l) s = .next t ∧ (t.link out).dataQ = (s.link out).dataQ ++ [d] ∧ d.from_ = some l ∧ d.port = l
            ∧ d.due = s.wall + nsToPeriods s 24 ∧ d.more = !f.eop ∧ d.frames = [⟨0, true, f.eop, f.bytes.length, nextHop f.bytes⟩]
            ∧ (t.link l).into = (if f.eop then none else some (.out out)) ∧ (t.link l).data.rx = [] ∧ SameMemories s t ∧ t.cores = s.cores)))
    ∧ (∀ l k left dbeat part sig src bytes,
      let x := s.link l
      let f := readFrame bytes
      let whole := part ++ f.payload.take f.valid
      let lat := if l / 4 = k / 288 then 16 else 64
      writable s (.ply l) = true → x.st = .up → x.into = some (.core k (left + 1) dbeat part sig src) → x.data.rx = [] → crcOk bytes = true →
        f.ackClass = 0 → f.cls = 1 → f.sop = false → f.eop = decide (left = 0) → f.seq = x.data.expected → f.seq < 4096 → x.data.used < 2048 →
        256 ≤ whole.length → whole.length < 512 →
      ∃ t, exec (.frameReceive l bytes 0) s = .next t
        ∧ t.core k = { s.core k with
            extHeld := (s.core k).extHeld - 4
            ret := (s.core k).ret ++ (List.range 4).map fun j =>
              { addr := 64 * (dbeat + j), bytes := ((whole.take 256).drop (64 * j)).take 64, ready := s.wall + lat - 3 + j, planned := false, order := s.wall
                op := none, beat := j, sig := if j = 3 ∧ left = 0 then sig.map (fun g => (g, 3, src)) else none, link := some l } }
        ∧ (t.link l).into = (if left = 0 then none else some (.core k left (dbeat + 4) (whole.drop 256) sig src))
        ∧ SameMemories s t ∧ ∀ j, j ≠ k → t.core j = s.core j)
    ∧ (∀ l lane f rest, writable s (.ply l) = true → lane < 2 → (s.link l).st = .up → ((s.link l).cls (1 + lane)).rx = f :: rest →
      let p := ctlOf f.bytes
      let go : Instr := .fwMsg l lane
      let taken (t : State) : Prop := exec go s = .next t ∧ ((t.link l).cls (1 + lane)).rx = rest ∧ SameMemories s t ∧ t.cores = s.cores
      (lotAllowed s l p.lot = false → ∃ t, taken t ∧ t.regBit (.ply l) 0x14 4 = true)
      ∧ (lotAllowed s l p.lot = true → ctlOk p = false ∨ p.vl ≠ lane → ∃ t, taken t ∧ t.regBit (.ni (l / 4)) 0x14 0 = true)
      ∧ (lotAllowed s l p.lot = true → p.typ = 0x10 → p.routed = true → p.vl = lane →
        (forwardEntry s p.lot p.dst = none → ∃ t, taken t ∧ t.regBit .fab 0x14 1 = true ∧ t.reg .fab 0xC0 = satInc (s.reg .fab 0xC0))
        ∧ (∀ e, forwardEntry s p.lot p.dst = some e →
          let w := (e.getD 1 0).toNat
          let next := if bitOf w 5 then 1 else lane
          (bitOf w 7 = true → ∃ t, taken t ∧ Msg.fwMsg p.src p.body ∈ t.sent)
          ∧ (bitOf w 7 = false → p.ttl ≤ 1 → ∃ t, taken t ∧ t.regBit .fab 0x14 1 = true ∧ t.regN .fab 0xC4 = 2 ^ 31 + p.dst)
          ∧ (bitOf w 7 = false → 1 < p.ttl → linkUsable s (w % 32) = true → lotAllowed s (w % 32) p.lot = true →
            ∃ t c, taken t ∧ (if next = 0 then (t.link (w % 32)).ctl0 = (s.link (w % 32)).ctl0 ++ [c] else (t.link (w % 32)).ctl1 = (s.link (w % 32)).ctl1 ++ [c])
              ∧ c.bytes = ctlBytes 0x10 ((p.ttl - 1) % 64 * 4 + next * 2 + 1) p.lot p.dst p.src p.body ∧ c.due = s.wall)))))
  ∧ (∀ (s : State) (k : Nat) (o : Op) (e : List Word) (left cnt : Nat) (w : Bool), o.work = .rank (some (e, left)) w →
      let n := (fld o.desc 0).extent
      let m := (left + cnt - 1) / 128
      let link := hopLink (entryRoute e) 0
      let part := rankBeats o (128 * m) (Nat.min 128 (n - 128 * m))
      let last := decide (n ≤ 128 * (m + 1))
      left < n → 0 < cnt → left + cnt ≤ n →
      ((left + cnt) % 128 ≠ 0 → left + cnt < n → (rankOut k o cnt s).1.links = s.links ∧ (rankOut k o cnt s).2 = { o with work := .rank (some (e, left + cnt)) w })
      ∧ ((left + cnt) % 128 = 0 ∨ left + cnt = n → linkUsable s link = true → lotAllowed s link ((jobLot s).getD 0) = true →
        ∃ (d : TxData) (h : PktHead), ((rankOut k o cnt s).1.link link).dataQ = (s.link link).dataQ ++ [d] ∧ d.frames = framesOf h.words part ∧ d.port = 64 + virtOf s k
          ∧ d.panelBuf = some (k / 288) ∧ d.due = s.wall + 17 + (if link / 4 = k / 288 then 0 else 48)
          ∧ h.last = last ∧ h.sig = (if last then (rankTarget o).2.2 else none) ∧ h.dbeat = (rankTarget o).2.1 + 128 * m ∧ h.next = 1
          ∧ h.granules = part.length / 256 ∧ h.srcVcore = virtOf s k ∧ h.srcRank = jobRank s ∧ h.dstRank = (rankTarget o).1 / 2 ^ 28
          ∧ h.dstVcore = bits (rankTarget o).1 17 11 ∧ h.route = entryRoute e ∧ h.hops = entryHops e))
  ∧ (∀ (h : PktHead) (payload : List Byte), h.lot < 2 ^ 16 → h.hops < 16 → h.next < 16 → h.dstVcore < 2048 → h.dstRank < 2 ^ 20 → h.srcVcore < 2048 →
      h.srcRank < 2 ^ 20 → 1 ≤ h.granules → h.granules ≤ 32 → h.dbeat < 2 ^ 16 → h.route < 2 ^ 64 →
      (∀ g, h.sig = some g → h.last = true ∧ g.op < 4 ∧ g.ctr < 2 ^ 13) →
      headOf (h.words.flatMap (leBytes 4) ++ payload) = h
      ∧ (framesOf h.words payload).flatMap (·.payload) = h.words.flatMap (leBytes 4) ++ payload
      ∧ (∀ f ∈ framesOf h.words payload, f.valid = f.payload.length ∧ f.valid ≤ 256))


/-! ## Serving -/

/-- SQ_TAIL, CQ_HEAD, CREATE_QP, DELETE_QP, ASSIGN_QP and SRV_AQ_SIZE_WRITE (R327 to R332, R351, R358, R365): a doorbell within its ring moves
the ring's end and notes when the new entries came; one beyond it, or for a queue pair that does not exist, is recorded and puts that number
in ERROR, and so does an entry that cannot be read; queue pairs are created, deleted and assigned only from an admin queue pair, and assigned
only by the physical function, the first check that fails giving the status; a deletion ends what the queue pair holds; an assigned range
belongs to its function from then on; a size of an admin queue pair is stored when it is valid, and creates or deletes the pair. -/
def Obligations.DoorbellsAndQueuePairs : Prop :=
  (∀ (s : State) (q : Nat) (x : Qp), Live s = true → s.qp q = some x → q < 262144 →
      let failed (t : State) (code : Nat) : Prop := t.qp q = some { x with error := true, ready := [] } ∧ t.regBit .srv 0x14 0 = true
        ∧ (s.regBit .srv 0x7C 31 = false → t.regN .srv 0x7C = 2 ^ 31 + code * 2 ^ 20 + q) ∧ SameStreams s t
      (x.error = false →
        (∀ v, v < 2 ^ x.s → ∃ t, exec (.sqTail q v) s = .next t ∧ Quiet s t ∧ (∀ j, j ≠ q → t.qp j = s.qp j) ∧ t.srv.unread = s.srv.unread + 1
          ∧ t.qp q = some { x with sqTail := v, tSubmit := x.tSubmit ++ List.replicate ((v + 2 ^ x.s - x.sqTail) % 2 ^ x.s) s.time.toNat })
        ∧ (∀ v, v < 2 ^ x.c → ∃ t, exec (.cqHead q v) s = .next t ∧ Quiet s t ∧ (∀ j, j ≠ q → t.qp j = s.qp j) ∧ t.srv.unread = s.srv.unread + 1
          ∧ t.qp q = some { x with cqHead := v, irqSent := false })
        ∧ (∀ v, 2 ^ x.s ≤ v → x.deleting = none → ∃ t, exec (.sqTail q v) s = .next t ∧ failed t 1)
        ∧ (∀ v, 2 ^ x.c ≤ v → x.deleting = none → ∃ t, exec (.cqHead q v) s = .next t ∧ failed t 2))
      ∧ (s.boot.stage = .ready → x.waits = true → visitNext s = some q → ∀ ringOk, ringOk = false ∨ hostReach s (qpOwner s q) = false →
        ∀ i ∈ [Instr.generate q ringOk true, .cancel q ringOk, .ripBack q ringOk, .forecast q ringOk, .createQp q ringOk, .deleteQp q ringOk,
            .registerPrefix q ringOk true, .releasePrefix q ringOk, .registerMotif q ringOk, .releaseMotif q ringOk, .assignQp q ringOk],
          ∃ t, exec i s = .next t ∧ failed t 3))
  ∧ (∀ (s : State) (q v : Nat), Live s = true → s.qp q = none → q < 262144 → s.srv.badQps.contains q = false →
      ∀ i ∈ [Instr.sqTail q v, .cqHead q v], ∃ t, exec i s = .next t ∧ q ∈ t.srv.badQps ∧ t.srv.qps = s.srv.qps ∧ t.regBit .srv 0x14 0 = true
        ∧ (s.regBit .srv 0x7C 31 = false → t.regN .srv 0x7C = 2 ^ 31 + 4 * 2 ^ 20 + q) ∧ Quiet s t)
  ∧ (∀ (s : State) (q : Nat) (x : Qp) (e : List Byte),
      let k := asTaken s q x e
      let n := ent e 8 4
      (Takes s q x e 0x10 →
        let checks := [(onAdmin s k, 0x10), (createQpFields e, 0x11)] ++ qpChecks s k n ++ [((s.qp n).isNone && !s.srv.badQps.contains n, 0x11)]
        (∀ st, firstFail checks = some st → Answers (.createQp q true) s q x e st)
        ∧ (firstFail checks = none → ∃ t, exec (.createQp q true) s = .next t ∧ t.qp n = some (wantedQp e) ∧ Completes t q x (complFor s x e 0 0)
            ∧ Quiet s t ∧ (∀ j, j ≠ n → j ≠ q → t.qp j = s.qp j)))
      ∧ (Takes s q x e 0x11 →
        let there : Bool := match s.qp n with
          | some y => y.deleting.isNone
          | none => s.srv.badQps.contains n
        let checks := [(onAdmin s k, 0x10), (zeroElse e [(8, 4)], 0x11)] ++ qpChecks s k n ++ [(there, 0x11)]
        (∀ st, firstFail checks = some st → Answers (.deleteQp q true) s q x e st)
        ∧ (firstFail checks = none → s.qp n = none → ∃ t, exec (.deleteQp q true) s = .next t ∧ t.srv.badQps = s.srv.badQps.erase n
            ∧ Completes t q x (complFor s x e 0 0) ∧ Quiet s t)
        ∧ (∀ y, firstFail checks = none → s.qp n = some y →
          (stepsRun s = true → ∃ t, exec (.deleteQp q true) s = .next t ∧ t.qp q = some (takenQp x)
            ∧ t.qp n = some { y with deleting := some (some (q, ent e 4 4, headAfter x)) } ∧ t.srv.taken = s.srv.taken ++ [⟨n, 0, 0, .endAll n false⟩]
            ∧ (∀ j, j ≠ n → j ≠ q → t.qp j = s.qp j) ∧ Quiet s t)
          ∧ (stepsRun s = false → y.ready = [] → (∀ f ∈ liveCtxs s, f.2.qp ≠ n) → ∃ t, exec (.deleteQp q true) s = .next t ∧ t.qp n = none
            ∧ Completes t q x (complFor s x e 0 0) ∧ Quiet s t)))
      ∧ (Takes s q x e 0x16 →
        let checks := [(onAdmin s k && qpOwner s q == 0, 0x10),
          (zeroElse e [(8, 4), (12, 4), (16, 4), (20, 4), (24, 4), (28, 4)] && decide (1 ≤ n) && decide (n ≤ 64) && decide (ent e 16 4 ≤ 16384), 0x11),
          (ent e 16 4 == 0 || rangeFree s n (ent e 12 4) (ent e 16 4), 0x15)]
        (∀ st, firstFail checks = some st → Answers (.assignQp q true) s q x e st)
        ∧ (firstFail checks = none → ∃ t, exec (.assignQp q true) s = .next t ∧ Completes t q x (complFor s x e 0 0) ∧ Quiet s t
            ∧ (∀ v, v ≠ n → vfOf t v = vfOf s v)
            ∧ vfOf t n = ⟨if ent e 16 4 = 0 then 0 else ent e 12 4, ent e 16 4, ent e 20 4, ent e 24 4, ent e 28 4⟩
            ∧ (∀ j, ent e 12 4 ≤ j → j < ent e 12 4 + ent e 16 4 → qpOwner t j = n))))
  ∧ (∀ (s : State) (vf : Nat) (w : Word), Live s = true → vf ≤ 64 → vf = 0 ∨ (vfOf s vf).count ≠ 0 →
      let a := adminQp s vf
      let sl := w.toNat % 256
      let cl := bits w.toNat 8 8
      let ok (v : Nat) : Prop := 4 ≤ v ∧ v ≤ 16
      let size (t : State) : Nat := if vf = 0 then t.regN .srv 0x78 else t.regN (.vfn vf) 0x10078
      (ok sl → ok cl → s.qp a = none → s.srv.badQps.contains a = false →
        ∃ t, exec (.srvAqSizeWrite vf w) s = .next t ∧ Quiet s t ∧ (∀ j, j ≠ a → t.qp j = s.qp j) ∧ size t = cl * 256 + sl
          ∧ t.qp a = some { s := sl, c := cl, sq := if vf = 0 then s.reg64 .srv 0x68 else s.reg64 (.vfn vf) 0x10068
                            cq := if vf = 0 then s.reg64 .srv 0x70 else s.reg64 (.vfn vf) 0x10070 })
      ∧ (∀ y, sl = 0 → cl = 0 → s.qp a = some y → stepsRun s = true →
        ∃ t, exec (.srvAqSizeWrite vf w) s = .next t ∧ Quiet s t ∧ size t = 0 ∧ t.qp a = some { y with deleting := some none }
          ∧ t.srv.taken = s.srv.taken ++ [⟨a, 0, 0, .endAll a false⟩])
      ∧ (sl ≠ 0 ∨ cl ≠ 0 → ¬ok sl ∨ ¬ok cl →
        ∃ t, exec (.srvAqSizeWrite vf w) s = .next t ∧ Quiet s t ∧ t.srv = s.srv ∧ (ok sl → size t % 256 = sl) ∧ (¬ok sl → size t % 256 = size s % 256)
          ∧ (ok cl → size t / 256 = cl) ∧ (¬ok cl → size t / 256 = bits (size s) 8 8)))

/-- GENERATE, FORECAST, CANCEL and RIP_BACK (R332, R335, R343, R350, R351, R355): the first check that fails gives the status, and the refusal
changes no context; a request that passes every check takes a free context with the fields of its entry and, for a GENERATE, its reservation
and its tokens in the prompt area; a CANCEL or RIP_BACK waits for step 3 of R347, or acts at once where no steps run: it finds no request, or
the cancelled one ends with its own completion before that of the CANCEL; a RIP_BACK in forecasting mode is refused, and one that is applied
moves COMMITTED back within the request's own tokens, or is out of range and says what is committed. -/
def Obligations.RequestsAreAdmittedOrRefused : Prop :=
  (∀ (s : State) (q : Nat) (x : Qp) (e : List Byte) (p : SrvParams), s.srv.params = some p →
    let k := asTaken s q x e
    (∀ opc ok, Takes s q x e opc → opc ∉ [1, 2, 3, 4] → opc < 0x10 ∨ 0x16 < opc → Answers (.generate q true ok) s q x e 0x10)
    ∧ (Takes s q x e 1 →
      (∀ st ok, generateStatus p k s = some st → Answers (.generate q true ok) s q x e st)
      ∧ (generateStatus p k s = none → Answers (.generate q true false) s q x e 0x16)
      ∧ (generateStatus p k s = none → (liveCtxs s).length < 2097152 → FMap.wf none s.srv.ctxs = true →
        let tokens := (prefixOf s k).tail ++ hostGet s (qpOwner s q) (ent e 24 8) (4 * ent e 20 4)
        let total := (prefixOf s k).len + ent e 20 4
        let shared := (prefixOf s k).sharedTokens
        ∃ t c y, exec (.generate q true true) s = .next t ∧ s.ctx c = none ∧ t.ctx c = some y ∧ (∀ j, j ≠ c → t.ctx j = s.ctx j)
          ∧ y.qp = q ∧ y.cid = ent e 4 4 ∧ y.promptTotal = total ∧ y.committed = shared ∧ y.motif = ent e 16 4 ∧ y.prefixH = ent e 8 8
          ∧ y.st = (if total ≤ shared then .decode else .queued) ∧ y.temp = ent e 44 4 ∧ y.topk = ent e 48 2 ∧ y.topp = ent e 50 2 ∧ y.strm = ent e 52 4
          ∧ y.maxNew = ent e 40 4 ∧ y.tokens = 0 ∧ y.out = ent e 32 8 ∧ y.deadline = firstDeadline x k.t ∧ t.qp q = some (takenQp x)
          ∧ some y.pool = choosePool s (namedPrefix s k) y.reserved
          ∧ y.reserved = 1 + p.pps * (ceilDiv (total + ent e 40 4 + y.draft) p.tpp - shared / p.tpp)
          ∧ (t.pool y.pool).reserved = (s.pool y.pool).reserved + y.reserved
          ∧ Mem.bytes t.hbm (promptPlace p k s) tokens.length = tokens ∧ y.promptAddr = promptPlace p k s ∧ SameStreams s t))
    ∧ (Takes s q x e 4 →
      (∀ st, forecastStatus p k s = some st → Answers (.forecast q true) s q x e st)
      ∧ (forecastStatus p k s = none → (liveCtxs s).length < 2097152 → FMap.wf none s.srv.ctxs = true →
        ∃ t c, exec (.forecast q true) s = .next t ∧ s.ctx c = none ∧ t.ctx c = some { forecastCtx k with serial := s.srv.picks }
          ∧ (∀ j, j ≠ c → t.ctx j = s.ctx j) ∧ t.qp q = some (takenQp x) ∧ SameStreams s t))
    ∧ (Takes s q x e 2 →
      (zeroElse e [(8, 4)] = false → Answers (.cancel q true) s q x e 0x11)
      ∧ (zeroElse e [(8, 4)] = true → stepsRun s = true → Waits (.cancel q true) s q x ⟨q, ent e 4 4, headAfter x, .cancel (ent e 8 4)⟩)
      ∧ (zeroElse e [(8, 4)] = true → stepsRun s = false → findRequest s q (ent e 8 4) = none → Answers (.cancel q true) s q x e 0x18)
      ∧ (∀ c y, zeroElse e [(8, 4)] = true → stepsRun s = false → findRequest s q (ent e 8 4) = some (c, y) → s.ctx c = some y →
        ∃ t z, exec (.cancel q true) s = .next t ∧ t.qp q = some { takenQp x with ready := x.ready ++ [z, complFor s x e 0 0] } ∧ z.cid = y.cid
          ∧ z.status = 0x20 ∧ z.ctx = some c ∧ z.tokens = (if y.isForecast then y.doneSeries else y.tokens)
          ∧ t.ctx c = some { y with st := .ending, pages := [], reserved := 0 } ∧ (∀ j, j ≠ c → t.ctx j = s.ctx j) ∧ SameStreams s t))
    ∧ (Takes s q x e 3 →
      (p.forecasting = true → Answers (.ripBack q true) s q x e 0x10)
      ∧ (p.forecasting = false → zeroElse e [(8, 4), (12, 4), (16, 4)] = false ∨ p.vocab ≤ ent e 16 4 → Answers (.ripBack q true) s q x e 0x11)
      ∧ (zeroElse e [(8, 4), (12, 4), (16, 4)] = true → ent e 16 4 < p.vocab → stepsRun s = true →
        Waits (.ripBack q true) s q x ⟨q, ent e 4 4, headAfter x, .ripBack (ent e 8 4) (ent e 12 4) (ent e 16 4)⟩)
      ∧ (zeroElse e [(8, 4), (12, 4), (16, 4)] = true → ent e 16 4 < p.vocab → p.forecasting = false → stepsRun s = false →
          findRequest s q (ent e 8 4) = none → Answers (.ripBack q true) s q x e 0x18)))
  ∧ (∀ (s : State) (p : SrvParams) (c : TakenCmd) (y : Ctx) (z : Qp) (i target length next : Nat), s.srv.params = some p →
      findRequest s c.qp target = some (i, y) → s.qp c.qp = some z → z.error = false →
      let posts (w : State) (status result : Nat) : Prop :=
        w.qp c.qp = some { z with ready := z.ready ++ [{ cid := c.cid, status := status, sqhd := c.sqhd, result := result }] }
      let w := applyRipBack s c target length next
      (y.isForecast = true → posts w 0x18 0 ∧ w.srv.ctxs = s.srv.ctxs)
      ∧ (y.isForecast = false → length < y.shared ∨ y.committed < length ∨ y.committed < y.promptTotal → posts w 0x15 y.committed ∧ w.srv.ctxs = s.srv.ctxs)
      ∧ (y.isForecast = false → y.shared ≤ length → length ≤ y.committed → y.promptTotal ≤ y.committed → posts w 0 length
        ∧ w.ctx i = some { y with committed := length, inToken := next, pages := y.pages.filter fun g => decide (g.1 < p.pps * (length / p.tpp + 1)) }
        ∧ (∀ j, j ≠ i → w.ctx j = s.ctx j) ∧ w.skein = s.skein ∧ w.cores = s.cores))

/-- REGISTER_PREFIX, RELEASE_PREFIX, REGISTER_MOTIF, RELEASE_MOTIF, PREFIX_PREFILL_DONE and MOTIF_RELEASE_DONE (R337 to R341): a
registration takes a free slot; a release makes the handle or identifier stale at once, and the motif's slot waits for its last context;
the prefill's end makes the handle current. -/
def Obligations.PrefixesAndMotifsComeAndGo : Prop :=
  ∀ (s : State) (q : Nat) (x : Qp) (e : List Byte) (p : SrvParams), s.srv.params = some p →
    let k := asTaken s q x e
    let fn := qpOwner s q
    (Takes s q x e 0x12 →
      (∀ st ok, registerPrefixStatus ok p k s = some st → Answers (.registerPrefix q true ok) s q x e st)
      ∧ (∀ ok, registerPrefixStatus ok p k s = none → (liveCtxs s).length < 2097152 → FMap.wf {} s.srv.prefixes = true →
        let tokens := hostGet s fn (ent e 24 8) (4 * ent e 20 4)
        ∃ t i c y, exec (.registerPrefix q true ok) s = .next t ∧ (s.prefixAt i).registered = false
          ∧ (t.prefixAt i).registered = true ∧ (t.prefixAt i).ready = false ∧ (t.prefixAt i).fn = fn ∧ (t.prefixAt i).len = ent e 20 4
          ∧ (t.prefixAt i).motif = ent e 16 4 ∧ (t.prefixAt i).sharedTokens = p.tpp * (ent e 20 4 / p.tpp)
          ∧ (t.prefixAt i).gen = (s.prefixAt i).gen ∧ t.ctx c = some y ∧ y.isPrefix = some i ∧ y.promptTotal = ent e 20 4 ∧ y.committed = 0
          ∧ t.qp q = some (takenQp x) ∧ (∀ j, j ≠ i → t.prefixAt j = s.prefixAt j) ∧ Mem.bytes t.hbm y.promptAddr tokens.length = tokens ∧ SameStreams s t))
    ∧ (Takes s q x e 0x13 →
      let slot := currentPrefix s (ent e 8 8)
      let checks := [(onAdmin s k, 0x10), (zeroElse e [(8, 8)], 0x11), (slot.isSome, 0x12), ((s.prefixAt (slot.getD 0)).fn == fn, 0x19)]
      (∀ st, firstFail checks = some st → Answers (.releasePrefix q true) s q x e st)
      ∧ (∀ i, firstFail checks = none → slot = some i →
        ∃ t, exec (.releasePrefix q true) s = .next t ∧ Completes t q x (complFor s x e 0 0) ∧ currentPrefix t (ent e 8 8) = none ∧ Quiet s t
          ∧ t.prefixAt i = { gen := if (s.prefixAt i).gen = 0xFFFFFF then 1 else (s.prefixAt i).gen + 1 } ∧ (∀ j, j ≠ i → t.prefixAt j = s.prefixAt j)))
    ∧ (Takes s q x e 0x14 →
      (∀ st, registerMotifStatus p k s = some st → Answers (.registerMotif q true) s q x e st)
      ∧ (registerMotifStatus p k s = none → FMap.wf {} s.srv.motifs = true →
        ∃ t i, exec (.registerMotif q true) s = .next t ∧ (s.motif i).registered = false ∧ (s.motif i).releasing = none
          ∧ t.motif i = { gen := (s.motif i).gen, registered := true, fn := fn, addr := ent e 8 8 } ∧ (∀ j, j ≠ i → t.motif j = s.motif j)
          ∧ Completes t q x (complFor s x e 0 ((s.motif i).gen * 2 ^ 16 + i))
          ∧ t.hbm = Mem.store s.hbm (p.motifTable + 8 * i) (leBytes 8 (ent e 8 8)) ∧ SameStreams s t))
    ∧ (Takes s q x e 0x15 →
      let slot := currentMotif s (ent e 16 4)
      let checks := [(onAdmin s k, 0x10), (zeroElse e [(16, 4)], 0x11), (slot.isSome, 0x13), ((s.motif (slot.getD 0)).fn == fn, 0x19)]
      (∀ st, firstFail checks = some st → Answers (.releaseMotif q true) s q x e st)
      ∧ (∀ i, firstFail checks = none → slot = some i →
        ∃ t, exec (.releaseMotif q true) s = .next t ∧ t.qp q = some (takenQp x) ∧ currentMotif t (ent e 16 4) = none
          ∧ (t.motif i).releasing = some (some (q, ent e 4 4, headAfter x))
          ∧ (t.motif i).gen = (if (s.motif i).gen = 0xFFFF then 1 else (s.motif i).gen + 1) ∧ (∀ j, j ≠ i → t.motif j = s.motif j) ∧ Quiet s t))
    ∧ (∀ i c y z, Live s = true → ((liveCtxs s).find? fun f => f.2.open && f.2.isPrefix == some i && decide (f.2.committed = f.2.promptTotal)) = some (c, y) →
        s.qp y.qp = some z → z.error = false →
      let limit := p.pps * ((s.prefixAt i).sharedTokens / p.tpp)
      ∃ t, exec (.prefixPrefillDone i) s = .next t
        ∧ t.prefixAt i = { s.prefixAt i with ready := true, pages := y.pages.filter fun g => decide (g.1 < limit) }
        ∧ (∀ j, j ≠ i → t.prefixAt j = s.prefixAt j) ∧ t.ctx c = some { y with st := .ending, pages := [], reserved := 0 } ∧ SameStreams s t
        ∧ t.qp y.qp = some { z with ready := z.ready ++ [{ cid := y.cid, status := 0, sqhd := y.sqhd, tokens := (s.prefixAt i).sharedTokens
                                                           result := handleOf i (s.prefixAt i).gen, ctx := some c }] })
    ∧ (∀ i n cid sqhd z, Live s = true → (s.motif i).releasing = some (some (n, cid, sqhd)) → s.qp n = some z → z.error = false →
        ((liveCtxs s).any fun f => f.2.open && f.2.motif != 0 && f.2.motif % 2 ^ 16 == i) = false →
      ∃ t, exec (.motifReleaseDone i) s = .next t ∧ t.motif i = { gen := (s.motif i).gen } ∧ (∀ j, j ≠ i → t.motif j = s.motif j)
        ∧ t.qp n = some { z with ready := z.ready ++ [{ cid := cid, status := 0, sqhd := sqhd }] }
        ∧ t.hbm = Mem.store s.hbm (p.motifTable + 8 * i) (List.replicate 8 0) ∧ SameStreams s t)

/-- SERVING_STEP, FORECAST_BATCH and COMPLETION_POST (R333, R344 to R347, R349, R352, R353, R355, R356): once the step before has drained,
firmware applies its records and the commands it has taken, fills the slots in order of deadline and launches the step; one invalid record is
an error and applies none; an applied record commits its tokens and writes them to the host; a panel that drained first gets the next batch,
with its input in its window; a batch that has drained gives its outputs to its own request; a posted completion is written to the ring with
its phase and frees its context, and a ring that cannot be written is an error. -/
def Obligations.StepsBatchesAndCompletions : Prop :=
  (∀ (s : State) (p : SrvParams), Live s = true → s.srv.params = some p →
    (∀ start failed, stepsRun s = true → s.flt.stopped = false → stopReq s = false → s.ptc.toNat + 64 ≤ start →
        ((segmentCores s p).all fun e => coreFinished s e.1) = true →
      let records := if s.srv.stepRunning then stepRecords s p else []
      (records.all (fun e => recordOk s p e.1 e.2) = true →
        let a := records.foldl (applyRecord p failed) s
        let w := a.srv.taken.foldl applyTaken (a.modSrv fun r => { r with taken := [], stepRunning := false, slots := [] })
        let uses := fillSlots p.slots p.prefillTok (wanting w)
        ∃ t v, exec (.servingStep start failed) s = .next t ∧ t.srv.stepRunning = true
          ∧ t.srv.slots = uses.map some ++ List.replicate (p.slots - uses.length) none
          ∧ v.cores = w.cores ∧ t.cores = ((segmentCores v p).foldl (launchCore start) v).cores
          ∧ t.skein = s.skein ∧ t.stashMem = s.stashMem ∧ t.sram = s.sram)
      ∧ (records.all (fun e => recordOk s p e.1 e.2) = false →
        ∃ t, exec (.servingStep start failed) s = .next t ∧ t.srv = s.srv ∧ t.regBit .srv 0x14 1 = true ∧ Quiet s t))
    ∧ (∀ n c x w start, s.srv.st = .ready → p.forecasting = true → s.flt.stopped = false → s.ptc.toNat + 64 ≤ start →
        FMap.look none s.srv.batches n = none → minOn? (fun e => e.1 * 16 + e.2) s.srv.drainOrder = some (w, n) → nextBatch s = some (c, x) →
        let m := modelOf p x
        let k := Nat.min m.maxSeries (x.series - x.nextSeries)
        let y : Ctx := { x with nextSeries := x.nextSeries + k }
        k ≠ 0 → hostReach s (qpOwner s x.qp) = true →
      ∃ t v, exec (.forecastBatch n start true true) s = .next t
        ∧ FMap.look none t.srv.batches n = some { ctx := c, serial := x.serial, model := x.model, first := x.nextSeries, count := k }
        ∧ t.ctx c = some y ∧ v.cores = s.cores ∧ t.cores = ((batchCores v n m).foldl (launchCore start) v).cores
        ∧ t.hbm = Mem.store (Mem.store s.hbm (n * 0x2000000000 + p.fcIn) (hostGet s (qpOwner s x.qp) (x.inAddr + m.inBytes * x.nextSeries) (k * m.inBytes)))
            (p.requestTable + 128 * c) (ctxBytes y)
        ∧ t.skein = s.skein ∧ SameStores s t)
    ∧ (∀ n (b : Batch) (x : Ctx), s.ctx b.ctx = some x → x.open = true →
        let w := finishBatch n true p b s
        let m := modelOf p x
        (x.serial ≠ b.serial → w.ctx b.ctx = some x ∧ w.hostMem = s.hostMem)
        ∧ (x.serial = b.serial → hostReach s (qpOwner s x.qp) = true →
          w.hostMem = Mem.store s.hostMem (hostAt (qpOwner s x.qp) (x.out + m.outBytes * b.first)) (Mem.bytes s.hbm (n * 0x2000000000 + p.fcOut) (b.count * m.outBytes))
          ∧ (x.doneSeries + b.count < x.series → w.ctx b.ctx = some { x with doneSeries := x.doneSeries + b.count })))
    ∧ (∀ q x c, s.qp q = some x → x.deleting = none → postable x = some c →
      (hostReach s (qpOwner s q) = true →
        ∃ t, exec (.completionPost q true) s = .next t
          ∧ t.hostMem = Mem.store s.hostMem (hostAt (qpOwner s q) (x.cq + 32 * x.cqTail)) (complBytes c x.phase)
          ∧ t.qp q = some { x with ready := x.ready.drop 1, cqTail := (x.cqTail + 1) % 2 ^ x.c, phase := x.phase != decide (x.cqTail + 1 = 2 ^ x.c)
                                   irqSent := x.irqSent || x.ien }
          ∧ (∀ j, j ≠ q → t.qp j = s.qp j) ∧ (∀ i, c.ctx = some i → t.ctx i = none) ∧ (∀ j, c.ctx ≠ some j → t.ctx j = s.ctx j)
          ∧ t.skein = s.skein ∧ t.stashMem = s.stashMem ∧ t.sram = s.sram ∧ t.cores = s.cores)
      ∧ (∀ ok, ok = false ∨ hostReach s (qpOwner s q) = false → ∃ t, exec (.completionPost q ok) s = .next t
          ∧ t.qp q = some { x with error := true, ready := [] } ∧ t.regBit .srv 0x14 0 = true ∧ SameStreams s t))
    ∧ (∀ q x ok, s.qp q = some x → postable x = none → ∃ t, exec (.completionPost q ok) s = .next t ∧ t.srv.qps = s.srv.qps ∧ t.srv.ctxs = s.srv.ctxs
        ∧ Quiet s t))
  ∧ (∀ (s : State) (p : SrvParams) (failed : List Nat) (u : SlotUse) (r : StepRecord) (x : Ctx) (z : Qp), s.srv.params = some p → s.ctx u.ctx = some x → x.open = true →
      s.qp x.qp = some z → z.error = false → x.isForecast = false → u.chunk = none → x.isPrefix = none → doomed s u.ctx x = false → failed.contains u.ctx = false → hostReach s (qpOwner s x.qp) = true →
      let (ts, fin) := tokensOut p x r
      let w := applyRecord p failed s (u, r)
      ts ≠ [] →
      w.hostMem = Mem.store s.hostMem (hostAt (qpOwner s x.qp) (x.out + 4 * x.tokens)) (ts.flatMap (leBytes 4))
      ∧ ∃ y, w.ctx u.ctx = some y ∧ y.committed = x.committed + r.accept + 1 ∧ y.tokens = x.tokens + ts.length ∧ y.tLast = s.time.toNat
        ∧ y.inToken = r.tokens.getLast?.getD x.inToken ∧ (x.tFirst = 0 → y.tFirst = s.time.toNat)
        ∧ (fin = none → y.st = x.st ∧ y.pages = x.pages.filter fun g => decide (g.1 < p.pps * (y.committed / p.tpp + 1)))
        ∧ (∀ f, fin = some f → y.st = .ending ∧ ∃ zs c, (w.qp x.qp).map (·.ready) = some (z.ready ++ zs ++ [c])
            ∧ c.cid = x.cid ∧ c.status = 0 ∧ c.tokens = y.tokens ∧ c.ctx = some u.ctx))

/-! ## Host interface and interrupts -/

/-- FLR_VF, PF_RESET, LINK_CHANGE, HOST_IRQ_REARM, VF_IRQ_REARM and MSIX_UNMASK (R359, R367, R368, R377, R378, R381): a reset of a function clears
its registers and enables, ends its queue pairs without completions, releases its prefixes and motifs and makes its host buffers invalid, and
no skein and no stash sees it; a link change is shown and, where rate or width change, a cause; a rearm sends the message while the condition
stands, or marks it pending behind a mask, and does nothing otherwise; clearing the mask sends a pending message, or drops it when its
condition is gone. -/
def Obligations.FunctionsResetAndInterrupt : Prop :=
  ∀ s : State, Live s = true →
    (let ended (t : State) (mine : Nat → Prop) : Prop := ∀ q y, s.qp q = some y → mine (qpOwner s q) →
        (stepsRun s = true → t.qp q = some { y with error := true, ready := [], deleting := some none }) ∧ (stepsRun s = false → t.qp q = none);
      (∀ v, 1 ≤ v → v ≤ 64 →
        ∃ t, exec (.flrVf v) s = .next t ∧ FMap.look {} t.fns v = {} ∧ (∀ off, off < 0x20000 → t.reg (.vfn v) off = resetWord (.vfn v) off)
          ∧ ended t (· = v) ∧ (∀ i, (s.prefixAt i).registered = true → (s.prefixAt i).fn = v → (t.prefixAt i).registered = false)
          ∧ (∀ i, (s.motif i).registered = true → (s.motif i).fn = v → (t.motif i).registered = false)
          ∧ (∀ n, n < 256 → t.regBit .host (0x100C + 16 * n) 31
              = (s.regBit .host (0x100C + 16 * n) 31 && s.regN .host (0x100C + 16 * n) % 128 != v))
          ∧ t.srv.flrWaits = true ∧ t.skein = s.skein ∧ SameStores s t)
      ∧ (∀ k, ∃ t, exec (.pfReset k) s = .next t ∧ t.srv.vfs = []
          ∧ (FMap.look {} t.fns 0).bme = false ∧ (FMap.look {} t.fns 0).vfEnable = false ∧ (FMap.look {} t.fns 0).msixEnable = false
          ∧ (∀ v, 1 ≤ v → v ≤ 64 → FMap.look {} t.fns v = {} ∧ ∀ off, off < 0x20000 → t.reg (.vfn v) off = resetWord (.vfn v) off)
          ∧ (∀ off, off < 0x10000 → off ≠ 0x14 → off ≠ 0x54 → (off = 0x48 → k ≠ .flr) → t.reg .host off = resetWord .host off)
          ∧ (k = .flr → t.reg .host 0x48 = s.reg .host 0x48) ∧ ended t (· ≤ 64) ∧ t.skein = s.skein ∧ SameStores s t))
    ∧ (∀ speed width flit,
      (linkOk speed width flit = true →
        ∃ t, exec (.linkChange speed width flit) s = .next t ∧ t.regN .host 0x48 = width * 2 ^ 8 + b2n flit * 2 ^ 7 + speed ∧ Quiet s t
          ∧ (s.regN .host 0x48 % 8 ≠ speed ∨ bits (s.regN .host 0x48) 8 5 ≠ width → t.regBit .host 0x20 0 = true))
      ∧ (linkOk speed width flit = false → ∃ t, exec (.linkChange speed width flit) s = .next t ∧ t.regs = s.regs ∧ Quiet s t))
    ∧ (∀ (fn : Nat) (i : Instr), (fn = 0 ∧ i = .hostIrqRearm) ∨ (1 ≤ fn ∧ fn ≤ 64 ∧ i = .vfIrqRearm fn) →
      (fnCondition s fn = true → (FMap.look {} s.fns fn).d3hot = false → (FMap.look {} s.fns fn).msixEnable = true →
        ∃ t, exec i s = .next t ∧ Quiet s t ∧ t.regs = s.regs
          ∧ ((FMap.look {} s.fns fn).funcMask = false → vectorMasked s fn = false → Msg.msix fn ∈ t.sent)
          ∧ ((FMap.look {} s.fns fn).funcMask = true ∨ vectorMasked s fn = true → (FMap.look {} t.fns fn).pba = true))
      ∧ (fnCondition s fn = false → exec i s = .next (settle (dropLatch fn s))))
    ∧ (∀ fn, fn ≤ 64 → (FMap.look {} s.fns fn).pba = true → (FMap.look {} s.fns fn).d3hot = false →
        (FMap.look {} s.fns fn).msixEnable = true → (FMap.look {} s.fns fn).funcMask = false →
      ∃ t, exec (.msixUnmask fn) s = .next t ∧ (fnCondition s fn = true → Msg.msix fn ∈ t.sent) ∧ vectorMasked t fn = false
        ∧ (FMap.look {} t.fns fn).pba = false ∧ Quiet s t)

/-- ICU_SOURCE_EVENT, ICU_CLAIM, ICU_EOI, ICU_HOLDOFF_EXPIRE, ICU_XPANEL_GO and ICU_PENDING_CLEAR (R384 to R389): an edge counts and
leaves an edge-sensed source pending; a claim takes the candidate of highest priority above the stack's top, the lowest number among
equals; the end of handling pops the stack, and names a mismatch or an empty stack; a claim or a clear leaves a source pending whose edge
came in the same tick. -/
def Obligations.TheInterruptControllerClaimsInOrder : Prop :=
  ∀ (s : State) (p : Nat), Live s = true → writable s (.icu p) = true →
    let x := s.icu p
    (∀ n, n < 512 → icuUsed n = true → (x.src n).input = false → icuInput s p n = true →
      ∃ t, exec (.icuSourceEvent p n .rise) s = .next t ∧ Quiet s t ∧ ((t.icu p).src n).input = true ∧ (∀ m, m ≠ n → (t.icu p).src m = x.src m)
        ∧ ((x.src n).sense = 0 ∨ (x.src n).sense = 2 ∨ (x.src n).sense = 4 → ((t.icu p).src n).count = Nat.min ((x.src n).count + 1) 255)
        ∧ ((x.src n).sense = 2 ∨ (x.src n).sense = 4 → ((t.icu p).src n).edge = true ∧ ((t.icu p).src n).edgeAt = s.wall + 1))
    ∧ (∀ h n, h < 4 → n < 512 → icuUsed n = true → icuCandidate s p h n = true → icuTop s p h < (x.src n).prio →
        (∀ m, m < 512 → m ≠ n → icuUsed m = true → icuCandidate s p h m = true →
          (x.src m).prio < (x.src n).prio ∨ ((x.src m).prio = (x.src n).prio ∧ n < m)) → (∀ m, (x.src m).prio ≤ 15) →
      ∃ t, exec (.icuClaim p h) s = .next t ∧ Quiet s t ∧ t.reply.value = BitVec.ofNat 64 (2 ^ 31 + (x.src n).prio * 2 ^ 16 + n)
        ∧ icuStack t p h = (n, (x.src n).prio) :: icuStack s p h
        ∧ (t.icu p).src n = { x.src n with active := true, edge := (x.src n).edge && decide ((x.src n).edgeAt = s.wall + 1) }
        ∧ (∀ m, m ≠ n → (t.icu p).src m = x.src m)
        ∧ (s.regN (.icu p) (0x80 + 4 * (n / 32)) % 2 ^ 16 ≠ 0 →
          FMap.look none (t.icu p).holdoff (n / 32) = some (s.time.toNat + s.regN (.icu p) (0x80 + 4 * (n / 32)) % 2 ^ 16 * 1000)))
    ∧ (∀ h, h < 4 → (∀ m, m < 512 → icuUsed m = true → icuCandidate s p h m = true → (x.src m).prio ≤ icuTop s p h) →
      ∃ t, exec (.icuClaim p h) s = .next t ∧ Quiet s t ∧ t.reply.value = 0 ∧ t.icus = s.icus ∧ t.regs = s.regs)
    ∧ (∀ h src, h < 4 →
      (icuStack s p h = [] → ∃ t, exec (.icuEoi p h src) s = .next t ∧ Quiet s t ∧ t.icus = s.icus ∧ t.regBit (.icu p) 0x14 0 = true)
      ∧ (∀ n pr rest, icuStack s p h = (n, pr) :: rest →
        ∃ t, exec (.icuEoi p h src) s = .next t ∧ Quiet s t ∧ icuStack t p h = rest ∧ (t.icu p).src n = { x.src n with active := false }
          ∧ (∀ m, m ≠ n → (t.icu p).src m = x.src m)
          ∧ (src % 512 ≠ n → t.regBit (.icu p) 0x14 1 = true) ∧ (src % 512 = n → t.regs = s.regs)))
    ∧ (∀ g e, FMap.look none x.holdoff g = some e → e ≤ s.time.toNat →
      ∃ t, exec (.icuHoldoffExpire p g) s = .next t ∧ Quiet s t ∧ inHoldoff t p g = false ∧ FMap.look none (t.icu p).holdoff g = none)
    ∧ (∀ target, writable s (.icu target) = true → ((s.icu target).src (416 + p)).sense = 2 →
      ∃ t, exec (.icuXpanelGo p target) s = .next t ∧ Quiet s t ∧ ((t.icu target).src (416 + p)).edge = true
        ∧ ((t.icu target).src (416 + p)).count = Nat.min (((s.icu target).src (416 + p)).count + 1) 255)
    ∧ (∀ target, writable s (.icu target) = false → ∃ t, exec (.icuXpanelGo p target) s = .next t ∧ Quiet s t ∧ t.icus = s.icus)
    ∧ (∀ n, icuUsed n = true → 2 ≤ (x.src n).sense →
      ∃ t, exec (.icuPendingClear p n) s = .next t ∧ Quiet s t ∧ (∀ m, m ≠ n → (t.icu p).src m = x.src m)
        ∧ (t.icu p).src n = { x.src n with edge := (x.src n).edge && decide ((x.src n).edgeAt = s.wall + 1) })
    ∧ (∀ n, icuUsed n = false ∨ (x.src n).sense < 2 → ∃ t, exec (.icuPendingClear p n) s = .next t ∧ Quiet s t ∧ t.icus = s.icus)

/-! ## Clocks, power, temperature -/

/-- SYSREF_LOST, HOLDOVER_END, REFERENCE_RESTORED, REFCLK_LOST, PLL_UNLOCK, D2D_CRC_FAIL, D2D_RETRY_SUCCESS, D2D_PHASE, PLAN_SET_CHANGE
and PLAN_SWITCH_DONE (R18, R390 to R397): a lost SYSREF starts holdover and, like a PLL that unlocks, asks for a stop; a lost REFCLK100
takes the PCI Express link down; a failed unit is counted and retried under a hold, which freezes 24 plan clock periods later (R92), until its
sixteenth retry; a setting change stops PTC until it is done. TIME_STEP, TIME_SLEW, SLEW_ADJUST and PPS_IN_EDGE (R399 to R401): a step is
refused while the cast-on is RELEASED or with a slew, and else takes TIME to the set value in the next nanosecond; the last nanosecond of a
block is doubled or skipped, one unit of the slew at a time; an edge on PPS_IN latches TIME and counts. A plan clock period never takes TIME
back but by a step. -/
def Obligations.ReferencesPanelLinksSettingsAndTime : Prop :=
  (∀ s : State, Live s = true →
      (s.clk.sysrefOk = true → s.clk.holdover = none →
        ∃ t, exec .sysrefLost s = .next t ∧ t.clk = { s.clk with sysrefOk := false, pllLock := false, holdover := some s.time.toNat }
          ∧ t.regBit .clk 0x14 0 = true ∧ stopReq t = true ∧ Quiet s t)
      ∧ (∀ t0, s.clk.holdover = some t0 → t0 + 1000000 ≤ s.time.toNat →
        ∃ t, exec .holdoverEnd s = .next t ∧ t.clk = { s.clk with free := true } ∧ t.regs = s.regs ∧ Quiet s t)
      ∧ (∃ t, exec (.referenceRestored .sysref) s = .next t ∧ t.clk = { s.clk with sysrefOk := true } ∧ t.regs = s.regs ∧ Quiet s t)
      ∧ (∃ t, exec (.referenceRestored .refclk100) s = .next t ∧ t.clk = { s.clk with refclkOk := true } ∧ t.regs = s.regs ∧ Quiet s t)
      ∧ (s.clk.refclkOk = true →
        ∃ t, exec .refclkLost s = .next t ∧ t.clk = { s.clk with refclkOk := false } ∧ t.regBit .clk 0x14 1 = true ∧ t.regN .host 0x48 = 0
          ∧ t.flt.stopped = s.flt.stopped ∧ t.ptc = s.ptc ∧ t.skein = s.skein ∧ SameStores s t)
      ∧ (s.clk.sysrefOk = true →
        ∃ t, exec .pllUnlock s = .next t ∧ t.clk = { s.clk with pllLock := false } ∧ t.regBit .clk 0x14 2 = true ∧ stopReq t = true ∧ Quiet s t)
      ∧ (∀ p i, p < s.fuses.panels → i < 3 → (d2dNumber s p i).isSome = true →
        let others (t : State) : Prop := (∀ q j, j < 3 → q ≠ p ∨ j ≠ i → t.d2d q j = s.d2d q j) ∧ Quiet s t
        let counted (t : State) : Prop := t.reg (.d2d p) (0x44 + 16 * i) = satInc (s.reg (.d2d p) (0x44 + 16 * i))
        ((s.d2d p i).fails = 0 → s.hold = none → s.flt.stopped = false →
          ∃ t, exec (.d2dCrcFail p i) s = .next t ∧ t.d2d p i = { s.d2d p i with fails := 1 } ∧ counted t ∧ others t
            ∧ t.hold = some { reqs := [⟨7, p, true, 1, s.ptc.toNat, s.wall, [(.d2d p i, false)]⟩], freezeAt := s.wall + 24 })
        ∧ (1 ≤ (s.d2d p i).fails → (s.d2d p i).fails < 16 →
          ∃ t, exec (.d2dCrcFail p i) s = .next t ∧ t.d2d p i = { s.d2d p i with fails := (s.d2d p i).fails + 1 } ∧ counted t ∧ t.hold = s.hold ∧ others t)
        ∧ (16 ≤ (s.d2d p i).fails → ∃ t, exec (.d2dCrcFail p i) s = .next t ∧ t.regBit (.d2d p) 0x14 0 = true ∧ t.d2ds = s.d2ds ∧ Quiet s t)
        ∧ ((s.d2d p i).fails ≠ 0 →
          ∃ t, exec (.d2dRetrySuccess p i) s = .next t ∧ t.d2d p i = { s.d2d p i with fails := 0 } ∧ others t
            ∧ t.hold = s.hold.map (·.mark fun _ it => decide (it = .d2d p i)))
        ∧ ((s.d2d p i).locked = true → ∃ t, exec (.d2dPhase p i) s = .next t ∧ t.regBit (.d2d p) 0x14 1 = true ∧ t.d2ds = s.d2ds ∧ Quiet s t))
      ∧ (∀ v, v < 3 → allIdle s = true → s.castSt ≠ .released → v ≠ s.regN .clk 0x40 % 4 →
        ∃ t, exec (.planSetChange v) s = .next t ∧ t.clk = { s.clk with switching := some s.time.toNat } ∧ t.regN .clk 0x40 = v
          ∧ ptcRuns t = false ∧ (∀ p i, p < s.fuses.panels → i < 3 → (d2dNumber s p i).isSome = true → (t.d2d p i).locked = false) ∧ Quiet s t)
      ∧ (∀ v, 3 ≤ v ∨ allIdle s = false ∨ s.castSt = .released →
        ∃ t, exec (.planSetChange v) s = .next t ∧ t.clk = s.clk ∧ t.regs = s.regs ∧ Quiet s t
          ∧ FMap.look 0 t.cnt (Blk.clk.base + 2) = Nat.min (FMap.look 0 s.cnt (Blk.clk.base + 2) + 1) 0xFFFFFFFF)
      ∧ (s.clk.switching.isSome = true →
        ∃ t, exec .planSwitchDone s = .next t ∧ t.clk = { s.clk with set := s.regN .clk 0x40 % 4, switching := none }
          ∧ t.regBit .clk 0x20 2 = true ∧ (∀ p i, p < s.fuses.panels → i < 3 → (d2dNumber s p i).isSome = true → (t.d2d p i).locked = true)
          ∧ Quiet s t))
  ∧ (∀ s : State, Live s = true →
      (s.castSt ≠ .released →
        ∃ t, exec (.timeStep false) s = .next t ∧ t.time = s.time ∧ Quiet s t ∧ t.regs = s.regs
          ∧ t.clk = { s.clk with stepTo := some (BitVec.ofNat 64 (s.reg64 .clk 0x50)), slewLeft := 0, slewOwed := 0 })
      ∧ (∀ b, b = true ∨ s.castSt = .released →
        ∃ t, exec (.timeStep b) s = .next t ∧ t.clk = s.clk ∧ t.time = s.time ∧ t.regBit .clk 0x14 3 = true ∧ Quiet s t)
      ∧ (∃ t, exec (.timeSlew false) s = .next t ∧ t.time = s.time + BitVec.ofNat 64 s.clk.slewOwed ∧ Quiet s t ∧ t.regs = s.regs
          ∧ t.clk = { s.clk with slewLeft := signed 32 (s.regN .clk 0x58), slewAt := 0, slewOwed := 0 })
      ∧ (∃ t, exec (.timeSlew true) s = .next t ∧ t.clk = s.clk ∧ t.time = s.time ∧ t.regBit .clk 0x14 3 = true ∧ Quiet s t)
      ∧ (s.clk.slewOwed ≠ 0 →
        (0 < s.clk.slewLeft → ∃ t, exec .slewAdjust s = .next t ∧ t.time = s.time + 2 ∧ t.clk.slewLeft = s.clk.slewLeft - 1 ∧ Quiet s t
          ∧ t.clk.slewOwed = s.clk.slewOwed - 1 ∧ (s.clk.slewLeft = 1 → t.regBit .clk 0x20 1 = true))
        ∧ (s.clk.slewLeft < 0 → ∃ t, exec .slewAdjust s = .next t ∧ t.time = s.time ∧ t.clk.slewLeft = s.clk.slewLeft + 1 ∧ Quiet s t
          ∧ t.clk.slewOwed = s.clk.slewOwed - 1 ∧ (s.clk.slewLeft = -1 → t.regBit .clk 0x20 1 = true)))
      ∧ (∃ t, exec .ppsInEdge s = .next t ∧ t.reg64 .clk 0x64 = s.time.toNat ∧ t.reg .clk 0x6C = satInc (s.reg .clk 0x6C)
          ∧ t.regBit .clk 0x20 0 = true ∧ t.time = s.time ∧ t.clk = s.clk ∧ Quiet s t)
      ∧ (s.pending = [] → ∃ t, step s = .next t ∧ (t.time = s.time ∨ t.time = s.time + 1 ∨ s.clk.stepTo = some t.time)))

/-- A write of PWR_DOMi.EN acts as the table of R404 states, and at the end of STARTING or STOPPING (DOMAIN_REACHED) the domain goes where
the table says; every block of the domain shows its state and PENDING_ON. As a memory's domain leaves ON, what waits at its controllers
completes at once, and that is PWR_DOMAIN_OFF (R406); no memory changes. -/
def Obligations.ADomainWriteFollowsTheTable : Prop :=
  (∀ (s : State) (p i : Nat), Live s = true → writable s (.pwr p) = true → i < 12 →
    let kept (t : State) : Prop := t.hbm = s.hbm ∧ t.stashMem = s.stashMem ∧ t.hostMem = s.hostMem ∧ t.bootMem = s.bootMem ∧ t.bbMem = s.bbMem
    (∃ t, exec (.pwrDomWrite p i true) s = .next t ∧ t.cnt = s.cnt ∧ Quiet s t ∧ (∀ q j, j < 12 → q ≠ p ∨ j ≠ i → t.dom q j = s.dom q j)
      ∧ t.dom p i = (match (s.dom p i).st with
        | .off => { st := .starting }
        | .starting | .on => s.dom p i
        | .stopping => { s.dom p i with pendOn := true }))
    ∧ (domRefused s p i = false →
      ∃ t, exec (.pwrDomWrite p i false) s = .next t ∧ SameMemories s t ∧ (∀ q j, j < 12 → q ≠ p ∨ j ≠ i → t.dom q j = s.dom q j)
        ∧ ((s.dom p i).st ≠ .on ∨ i = 8 ∨ i = 11 → t.cores = s.cores)
        ∧ (i = 9 → (s.dom p i).st = .on → ∀ st, st < 3 → (t.hbmStack p st).queue = [] ∧ ((s.hbmStack p st).queue ≠ [] → t.regBit (.pwr p) 0x14 1 = true))
        ∧ (i = 10 → (s.dom p i).st = .on → (t.stash p).reqs = [] ∧ ((s.stash p).reqs ≠ [] → t.regBit (.pwr p) 0x14 1 = true))
        ∧ t.dom p i = (match (s.dom p i).st with
          | .off => s.dom p i
          | .starting => { s.dom p i with pendOff := true }
          | .on => { st := .stopping }
          | .stopping => { s.dom p i with pendOn := false }))
    ∧ ((s.dom p i).st = .stopping → (i = 10 → (s.stash p).cmd = none) →
      ∃ t, exec (.domainReached p i) s = .next t ∧ t.dom p i = { st := if (s.dom p i).pendOn then .starting else .off } ∧ kept t
        ∧ (i < 8 → ∀ j, j < 36 → slotEnabled s p (36 * i + j) = true → t.core (coreKey p (36 * i + j)) = {}))
    ∧ ((s.dom p i).st = .starting →
      ∃ t, exec (.domainReached p i) s = .next t ∧ t.dom p i = { st := if (s.dom p i).pendOff then .stopping else .on } ∧ kept t
        ∧ (i < 8 → ∀ j, j < 36 → slotEnabled s p (36 * i + j) = true → t.core (coreKey p (36 * i + j)) = {})
        ∧ (∀ st, i = 9 → st < 3 → t.regBit (.hbm p st) 0x40 0 = false)))
  ∧ (∀ (s : State) (b : Blk) (p i : Nat), b.domain = some (p, i) → blkPresent s b = true →
    view s b 0x10 = (s.dom p i).st.code + 4 * b2n (s.dom p i).pendOn)

/-- A write of EN = 0 that R405 refuses changes no domain and sets DOMAIN_REFUSED. -/
def Obligations.ADomainInUseIsNotSwitchedOff : Prop :=
  ∀ (s : State) (p i : Nat), Live s = true → writable s (.pwr p) = true → i < 12 →
    s.castSt = .released
    ∨ (i < 8 ∧ ∃ j, j < 36 ∧ ((s.core (coreKey p (36 * i + j))).stream.st = .armed ∨ (s.core (coreKey p (36 * i + j))).stream.st = .running))
    ∨ (i = 11 ∧ p = 0) ∨ (i = 11 ∧ ∃ j, j < 11 ∧ (s.dom p j).st ≠ .off) →
    ∃ t, exec (.pwrDomWrite p i false) s = .next t ∧ t.doms = s.doms ∧ t.reg (.pwr p) (0x40 + 4 * i) = s.reg (.pwr p) (0x40 + 4 * i)
      ∧ t.regBit (.pwr p) 0x14 0 = true ∧ Quiet s t

/-- PWR_LIMIT_WRITE, PWR_MEASURE, THM_SAMPLE, THERMAL_FRAME_START, THERMAL_WITHDRAW and DUTY_UPDATE (R409, R411 to R414): a limit gives
the next budget level at once and the level in force stays; power above the limit throttles every monitor; a reading is taken only when TIME
mod 10,000 is 0, and one at its threshold starts the throttling of its panel, whose frames hold the package for DUTY × 2.5 µs and whose DUTY
follows the reading and the power; a reading of 105 °C asks for a hold that is not withdrawn, and for a stop. -/
def Obligations.TheLimitAndTheMonitorsThrottle : Prop :=
  ∀ s : State, Live s = true →
    (∀ w : Word, 2600 ≤ w.toNat → w.toNat ≤ 4800 → s.fuses.panels = 8 →
      ∃ t, exec (.pwrLimitWrite w) s = .next t ∧ t.regN .gov 0x40 % 2 ^ 13 = w.toNat
        ∧ nextLevel t = Nat.max 1 (Nat.min 8 (8 * (w.toNat - 2590) / 2210)) ∧ t.level = s.level ∧ Quiet s t)
    ∧ (∀ n, n < 2 ^ 13 → s.regN .gov 0x40 % 2 ^ 13 < n →
      ∃ t, exec (.pwrMeasure n) s = .next t ∧ t.regN .gov 0x48 = n ∧ (∀ p, p < s.fuses.panels → 1 ≤ (t.thm p).duty)
        ∧ ((∃ p, p < s.fuses.panels ∧ (s.thm p).dutyP = 0) → t.regBit .gov 0x20 0 = true) ∧ Quiet s t)
    ∧ (∀ n, n < 2 ^ 13 → n ≤ s.regN .gov 0x40 % 2 ^ 13 →
      ∃ t, exec (.pwrMeasure n) s = .next t ∧ t.regN .gov 0x48 = n ∧ t.thms = s.thms ∧ Quiet s t)
    ∧ (∀ (p : Nat) (r : Int), p < s.fuses.panels → -1024 ≤ r → r ≤ 1023 →
      (s.time.toNat % 10000 = 0 →
        ∃ t, exec (.thmSample p r) s = .next t ∧ (t.thm p).reading = r ∧ (∀ q, q ≠ p → t.thm q = s.thm q) ∧ Quiet s t
          ∧ ((s.thm p).reading < warnAt s p → warnAt s p ≤ r → t.regBit (.thm p) 0x20 0 = true)
          ∧ (throttleAt s p ≤ r → (s.thm p).duty = 0 → (t.thm p).dutyT = 1 ∧ (t.thm p).entry = s.time.toNat ∧ t.regBit (.thm p) 0x20 1 = true)
          ∧ (r < throttleAt s p → (t.thm p).dutyT = (s.thm p).dutyT)
          ∧ (840 ≤ r → t.regBit (.thm p) 0x14 0 = true ∧ stopReq t = true
            ∧ ((s.thm p).crit = false → s.flt.stopped = false → s.hold = none →
              t.hold = some { reqs := [⟨4, p, true, 0, s.ptc.toNat, s.wall, [(.critical p, false)]⟩], freezeAt := s.wall + 24 })))
      ∧ (s.time.toNat % 10000 ≠ 0 → ∃ t, exec (.thmSample p r) s = .next t ∧ t.thms = s.thms ∧ t.regs = s.regs ∧ t.hold = s.hold ∧ Quiet s t))
    ∧ (∀ p, (s.thm p).duty ≠ 0 → (s.thm p).withdrawAt = none → (s.thm p).entry + 20000 * (s.thm p).frames ≤ s.time.toNat →
        s.flt.stopped = false → s.hold = none →
      let start := (s.thm p).entry + 20000 * (s.thm p).frames
      ∃ t, exec (.thermalFrameStart p) s = .next t ∧ Quiet s t ∧ (∀ q, q ≠ p → t.thm q = s.thm q)
        ∧ t.thm p = { s.thm p with frames := (s.thm p).frames + 1, withdrawAt := some (start + 2500 * (s.thm p).duty) }
        ∧ t.hold = some { reqs := [⟨4, p, true, 0, s.ptc.toNat, s.wall, [(.thermal p, false)]⟩], freezeAt := s.wall + 24 })
    ∧ (∀ p e, (s.thm p).withdrawAt = some e → e ≤ s.time.toNat →
      ∃ t, exec (.thermalWithdraw p) s = .next t ∧ Quiet s t ∧ t.thm p = { s.thm p with withdrawAt := none } ∧ (∀ q, q ≠ p → t.thm q = s.thm q)
        ∧ t.hold = s.hold.map (·.mark fun _ it => decide (it = .thermal p)))
    ∧ (∀ p, (s.thm p).duty ≠ 0 → (s.thm p).entry + 1000000 * ((s.thm p).updates + 1) ≤ s.time.toNat →
      ∃ t, exec (.dutyUpdate p) s = .next t ∧ Quiet s t ∧ (t.thm p).updates = (s.thm p).updates + 1 ∧ (∀ q, q ≠ p → t.thm q = s.thm q)
        ∧ (let watts := s.regN .gov 0x48
           let limit := s.regN .gov 0x40 % 2 ^ 13
           ((s.thm p).dutyT ≠ 0 → (throttleAt s p ≤ (s.thm p).reading → (t.thm p).dutyT = Nat.min ((s.thm p).dutyT + 1) 6)
            ∧ ((s.thm p).reading ≤ throttleAt s p - 24 → (t.thm p).dutyT = (s.thm p).dutyT - 1)
            ∧ (throttleAt s p - 24 < (s.thm p).reading → (s.thm p).reading < throttleAt s p → (t.thm p).dutyT = (s.thm p).dutyT))
           ∧ ((s.thm p).dutyP ≠ 0 → (limit ≤ watts → (t.thm p).dutyP = Nat.min ((s.thm p).dutyP + 1) 6)
            ∧ (watts < limit → 100 * watts ≤ 97 * limit → (t.thm p).dutyP = (s.thm p).dutyP - 1)
            ∧ (watts < limit → 97 * limit < 100 * watts → (t.thm p).dutyP = (s.thm p).dutyP)))
        ∧ (t.thm p).duty = Nat.max (t.thm p).dutyT (t.thm p).dutyP)

/-! ## Stops, recorders, tests -/

/-- FLT_STOP, HW_STOP_TIMEOUT, HOST_STOP, FW_ASSERT and FLT_CLEAR (R354, R456, R460, R461, R466): a stop freezes PTC, faults every stream of a
powered core and ends every hold; the HBM controllers keep only the writes that have reached them and go to FREE mode; a serving job is
stopped; a recorder that is to freeze does; no skein changes. 8 µs after a request the hardware stops by itself, and the requests of a serving
job are lost without completions. A clear needs every request gone, the records copied and the bind-off done. -/
def Obligations.AStopFreezesThePackage : Prop :=
  ∀ s : State, Live s = true →
    (let stopped (t : State) (hw : Bool) : Prop := t.flt.stopped = true ∧ t.flt.hwStop = hw ∧ t.flt.needBind = !allIdle s ∧ ptcRuns t = false
        ∧ t.ptc = s.ptc ∧ t.hold = none ∧ t.nextHold = none
        ∧ (∀ k ∈ allCores s, coreOn s k = true → (t.core k).stream.st = .faulted ∧ (t.core k).inflight = [])
        ∧ (∀ e ∈ allStacks s, planned t e.1 e.2 = false ∧ (t.hbmStack e.1 e.2).queue = (s.hbmStack e.1 e.2).queue.filter (Granule.stays s.wall))
        ∧ (∀ r ∈ recorders s, blkPower s (evrBlk r) = 2 → s.regBit (evrBlk r) 0x40 1 = true → (FMap.look {} t.evrs r).frozen = true)
        ∧ (s.srv.st = .ready → t.srv.st = .stopped) ∧ t.regBit .flt 0x20 0 = true ∧ t.skein = s.skein ∧ SameStores s t;
      (s.flt.stopped = false → ∃ t, exec .fltStop s = .next t ∧ stopped t false)
      ∧ (∀ t0, s.flt.stopped = false → s.flt.reqSince = some t0 → stopReq s = true → t0 + 8000 ≤ s.time.toNat →
          ∃ t, exec .hwStopTimeout s = .next t ∧ stopped t true ∧ t.srv.qps = s.srv.qps))
    ∧ (s.flt.stopped = true → ∃ t, exec .fltStop s = .next t ∧ t.flt = s.flt ∧ Quiet s t)
    ∧ (∃ t, exec .hostStop s = .next t ∧ t.regBit .flt 0x14 4 = true ∧ stopReq t = true ∧ t.flt.stopped = s.flt.stopped ∧ Quiet s t)
    ∧ (∃ t, exec .fwAssert s = .next t ∧ t.regBit .flt 0x14 5 = true ∧ stopReq t = true ∧ t.flt.stopped = s.flt.stopped ∧ Quiet s t)
    ∧ (stopReq s = false → s.flt.bbBusy = false → s.bind = none → s.flt.needBind = false →
      ∃ t, exec .fltClear s = .next t ∧ t.flt.stopped = false ∧ t.flt.first = none ∧ (∀ r, (FMap.look {} t.evrs r).frozen = false) ∧ Quiet s t)
    ∧ (stopReq s = true ∨ s.flt.bbBusy = true ∨ s.bind ≠ none ∨ s.flt.needBind = true →
      ∃ t, exec .fltClear s = .next t ∧ t.flt = s.flt ∧ t.evrs = s.evrs ∧ t.regs = s.regs ∧ Quiet s t)

/-- EVR_RECORD, EVR_SOFT, BLACK_BOX_COPY, BB_DONE, IST_WINDOW, CC_WATCHDOG, CC_WDOG_KICK and LOCAL_SRAM_SCRUB (R249, R455, R459, R467 to
R476): a recorder takes its trigger's record into the ring, and the next record says how many triggers it missed meanwhile; a stopped package
copies its records once to both stacks, records first and the page with their digest when the copy is complete, and then erases the next slot;
a window on a quiet core opens without a fault, and its slices move the core's rotation on in their last ticks, one whose signature does not
match being a fault; the watchdog of a complex raises its error. -/
def Obligations.RecordersBlackBoxTestsAndWatchdogs : Prop :=
  (∀ s : State, Live s = true →
    (∀ r tr, (FMap.look {} s.evrs r).pending = some tr →
      let e := FMap.look {} s.evrs r
      ∃ t, exec (.evrRecord r) s = .next t ∧ Quiet s t ∧ (∀ j, j ≠ r → FMap.look {} t.evrs j = FMap.look {} s.evrs j)
        ∧ FMap.look {} t.evrs r = { e with head := e.head + 1, pending := none, ring := FMap.put [] e.ring (e.head % 1024) (evrBytes s r e tr) }
        ∧ (evrBytes s r e tr).length = 256)
    ∧ (∀ r, r ≤ 8 → s.regBit (evrBlk r) 0x44 5 = true → blkPower s (evrBlk r) = 2 →
      let e := FMap.look {} s.evrs r
      (e.frozen = false → e.pending = none →
        ∃ t, exec (.evrSoft r) s = .next t ∧ Quiet s t
          ∧ FMap.look {} t.evrs r = { e with pending := some ⟨s.time, s.ptc, 5, 0, 0, 0, e.merged⟩, merged := 0 })
      ∧ (e.frozen = true ∨ e.pending ≠ none →
        ∃ t, exec (.evrSoft r) s = .next t ∧ Quiet s t ∧ FMap.look {} t.evrs r = { e with merged := Nat.min (e.merged + 1) 255 }
          ∧ t.reg (evrBlk r) 0x54 = satInc (s.reg (evrBlk r) 0x54)))
    ∧ (∀ f0 f1, s.flt.stopped = true → s.regBit .flt 0x40 4 = true → s.flt.copied = false → s.flt.bbBusy = false → s.pins.thermtrip = false → s.flt.box = [] →
      let copies (q : Nat) (fail : Bool) : List BoxCopy := if fail || !domOn s q 10 then [] else [⟨q, nextSlot (s.stash q), s.time.toNat, boxRecords s⟩]
      ∃ t, exec (.blackBoxCopy f0 f1) s = .next t ∧ t.flt.bbBusy = true ∧ t.flt.copied = true ∧ t.flt.box = copies 0 f0 ++ copies 1 f1
        ∧ (copies 0 f0 = [] ∨ copies 1 f1 = [] → t.regBit .flt 0x14 6 = true) ∧ Quiet s t)
    ∧ (∀ b : BoxCopy, s.flt.bbBusy = true → s.flt.box = [b] → b.slot < 8 → b.records.length + 4096 ≤ 2 ^ 22 →
      let x := s.stash b.panel
      let at_ := 2 ^ 25 * b.panel + 2 ^ 22 * b.slot
      let next := (b.slot + 1) % 8
      let head := leBytes 8 x.bbSeq ++ leBytes 8 b.time ++ leBytes 4 b.records.length ++ sha3 b.records
      ∃ t, exec .bbDone s = .next t ∧ t.flt.bbBusy = false ∧ t.flt.box = [] ∧ t.regBit .flt 0x20 1 = true
        ∧ (t.stash b.panel).bbSeq = x.bbSeq + 1 ∧ (t.stash b.panel).bbLast = b.slot ∧ b.slot ∈ (t.stash b.panel).bbValid ∧ next ∉ (t.stash b.panel).bbValid
        ∧ Mem.bytes t.bbMem at_ head.length = head ∧ Mem.bytes t.bbMem (at_ + 4096) b.records.length = b.records
        ∧ (∀ a, a < 2 ^ 22 → Mem.byte t.bbMem (2 ^ 25 * b.panel + 2 ^ 22 * next + a) = 0)
        ∧ t.skein = s.skein ∧ t.hbm = s.hbm ∧ t.stashMem = s.stashMem ∧ t.sram = s.sram ∧ t.hostMem = s.hostMem ∧ t.bootMem = s.bootMem ∧ t.cores = s.cores)
    ∧ (∀ i k start len r, istNext s i = some (k, start, len) → istMayStart s = true → start ≤ s.ptc.toNat →
      ∃ t, exec (.istWindow i r) s = .next t ∧ Quiet s t ∧ FMap.look 0 t.flt.istRuns i = FMap.look 0 s.flt.istRuns i + 1
        ∧ FMap.look [] t.flt.istOpen k = FMap.look [] s.flt.istOpen k ++ [⟨start, len, istBad r⟩]
        ∧ (drained (s.core k) = true → t.regs = s.regs) ∧ (drained (s.core k) = false → t.regBit .flt 0x14 3 = true))
    ∧ (∀ p, writable s (.cc p) = true →
      (s.regN (.cc p) 0x44 % 2 ^ 16 ≠ 0 → FMap.look 0 s.ccKick p + s.regN (.cc p) 0x44 % 2 ^ 16 * 1000000 ≤ s.time.toNat →
        ∃ t, exec (.ccWatchdog p) s = .next t ∧ t.regBit (.cc p) 0x14 1 = true ∧ (p < 8 → stopReq t = true) ∧ Quiet s t)
      ∧ (∃ t, exec (.ccWdogKick p) s = .next t ∧ FMap.look 0 t.ccKick p = s.time.toNat ∧ t.regs = s.regs ∧ Quiet s t)
      ∧ (∀ a, a < 0x200000 → (∃ t, exec (.localSramScrub p [⟨a, true⟩]) s = .next t ∧ t.regBit (.cc p) 0x14 0 = true ∧ Quiet s t)
        ∧ (∃ t, exec (.localSramScrub p [⟨a, false⟩]) s = .next t ∧ t.reg (.cc p) 0x48 = satInc (s.reg (.cc p) 0x48) ∧ Quiet s t))))
  ∧ (∀ (s : State) (k : Nat) (w : IstWin), ptcRuns s = true → s.flt.istOpen = [(k, [w])] → s.regBit .flt 0x70 31 = true →
      let t := istTick s
      let x := s.ptc.toNat - (w.start + 32)
      (s.ptc.toNat < w.start + 32 ∨ x % 4032 ≠ 4031 ∨ (w.len - 64) / 4032 ≤ x / 4032 → t.cores = s.cores ∧ t.regs = s.regs)
      ∧ (w.start + 32 ≤ s.ptc.toNat → x % 4032 = 4031 → x / 4032 < (w.len - 64) / 4032 →
        t.core k = { s.core k with istSlice := (s.core k).istSlice + 1 } ∧ (∀ j, j ≠ k → t.core j = s.core j)
        ∧ (w.bad ≠ some (x / 4032) → t.regs = s.regs) ∧ (w.bad = some (x / 4032) → t.regBit .flt 0x14 2 = true))
      ∧ (t.flt.istOpen = [] ↔ w.start + w.len ≤ s.ptc.toNat + 1) ∧ SameMemories s t)

/-! ## Management -/

/-- The MCTP control messages, SetEventReceiver, the power effecter, the firmware update, the bus that carries them, the SVN commit and
the test port (R424, R477 to R481, R486, R489): each request is answered over its binding once its effect is done, and none over a binding
that is not up; an update that the checks refuse changes no boot slot; the minimum SVN takes the running image's only when that is greater;
boundary scan captures and drives levels whatever the package does (the order of its cells is the model's own, log entry 152), and a halted
hart makes the debugger's register accesses. -/
def Obligations.ManagementAnswersOverItsBindings : Prop :=
  (∀ s : State, Live s = true →
    (∀ b, bindingUp s b = true →
      (∀ eid, eid % 256 ≠ 0 → eid % 256 ≠ 255 →
        ∃ t, exec (.setEndpointId b eid) s = .next t ∧ t.mgmt = { s.mgmt with eid := eid % 256 } ∧ t.regBit .mgt 0x20 0 = true
          ∧ Msg.answer b (Config.mgmtResponse 0x01 (leBytes 1 (eid % 256))) ∈ t.sent ∧ Quiet s t)
      ∧ (∃ t, exec (.getEndpointId b) s = .next t ∧ t.mgmt = s.mgmt ∧ Msg.answer b (Config.mgmtResponse 0x02 (leBytes 1 s.mgmt.eid)) ∈ t.sent ∧ Quiet s t)
      ∧ (∃ t, exec (.getEndpointUuid b) s = .next t ∧ t.mgmt = s.mgmt ∧ Msg.answer b (Config.mgmtResponse 0x03 Config.endpointUuid) ∈ t.sent ∧ Quiet s t)
      ∧ (∀ typ, ∃ t, exec (.getMctpVersionSupport b typ) s = .next t ∧ t.mgmt = s.mgmt
          ∧ Msg.answer b (Config.mgmtResponse 0x04 (leBytes 1 typ ++ [1, 3])) ∈ t.sent ∧ Quiet s t)
      ∧ (∃ t, exec (.getMessageTypeSupport b) s = .next t ∧ t.mgmt = s.mgmt ∧ Msg.answer b (Config.mgmtResponse 0x05 [0, 1, 5]) ∈ t.sent ∧ Quiet s t)
      ∧ (∀ eid, ∃ t, exec (.setEventReceiver b eid) s = .next t ∧ t.mgmt = { s.mgmt with receiver := some (b, eid % 256) } ∧ Quiet s t))
    ∧ (∀ b eid typ, bindingUp s b = false →
      ∀ i ∈ [Instr.setEndpointId b eid, .getEndpointId b, .getEndpointUuid b, .getMctpVersionSupport b typ, .getMessageTypeSupport b, .setEventReceiver b eid],
        exec i s = .next (settle s))
    ∧ (∀ w, fwRuns s = true → 2600 ≤ w → w ≤ 4800 → ∃ t, exec (.pldmEffecterWrite w) s = .next t ∧ t.regN .gov 0x40 % 2 ^ 13 = w ∧ Quiet s t)
    ∧ (∀ w, w < 2600 ∨ 4800 < w → ∃ t, exec (.pldmEffecterWrite w) s = .next t ∧ t.regs = s.regs ∧ Quiet s t)
    ∧ (∀ image, fwRuns s = true →
      ∃ t, exec (.pldmFirmwareUpdate image) s = .next t ∧ t.skein = s.skein ∧ t.hbm = s.hbm ∧ t.stashMem = s.stashMem ∧ t.cores = s.cores
        ∧ (if imgCheck s (listRead image) = 0 ∧ imgLen (listRead image) = image.length ∧ domOn s 0 10 = true ∧ domOn s 1 10 = true then
            t.regBit .mgt 0x20 1 = true ∧ (image.length ≤ 2 ^ 21 →
              Mem.bytes t.bootMem 0 image.length = image ∧ Mem.bytes t.bootMem (2 ^ 22) image.length = image
              ∧ (∀ a, a < 2 ^ 21 → Mem.byte t.bootMem (2 ^ 21 + a) = Mem.byte s.bootMem a
                ∧ Mem.byte t.bootMem (3 * 2 ^ 21 + a) = Mem.byte s.bootMem (2 ^ 22 + a)))
          else t.bootMem = s.bootMem ∧ t.regs = s.regs))
    ∧ (∀ a, s.regBit .mgt 0x40 1 = true → s.mgmt.bus ≠ 2 →
      ∃ t, exec (.i3cAddressAssigned a) s = .next t ∧ t.mgmt = { s.mgmt with i3cAddr := a % 128, bus := 1 } ∧ Quiet s t)
    ∧ (∀ t0, s.mgmt.readyAt = some t0 → s.mgmt.bus = 0 → s.regBit .mgt 0x40 2 = true → t0 + 1000000000 ≤ s.time.toNat →
      ∃ t, exec .smbusFallback s = .next t ∧ t.mgmt = { s.mgmt with bus := 2 } ∧ Quiet s t)
    ∧ (s.boot.stage = .ready → s.fuses.svnMin < s.boot.svn →
      ∃ t, exec .svnCommit s = .next t ∧ t.fuses = { s.fuses with svnMin := s.boot.svn } ∧ t.regs = s.regs ∧ Quiet s t)
    ∧ (s.boot.stage ≠ .ready ∨ s.boot.svn ≤ s.fuses.svnMin →
      ∃ t, exec .svnCommit s = .next t ∧ t.fuses = s.fuses ∧ t.regBit .mgt 0x14 1 = true ∧ Quiet s t)
    ∧ (∀ p h, p < s.fuses.panels → h < 4 → domOn s p 11 = true →
      (FMap.look 0 s.harts (4 * p + h) ≠ 0 →
        ∃ t, exec (.testPortAccess (.halt p h)) s = .next t ∧ FMap.look 0 t.harts (4 * p + h) = 3 ∧ t.regs = s.regs ∧ Quiet s t)
      ∧ (FMap.look 0 s.harts (4 * p + h) = 3 → ∀ a v,
        (∃ t, exec (.testPortAccess (.resume p h)) s = .next t ∧ FMap.look 0 t.harts (4 * p + h) = 1 ∧ t.regs = s.regs ∧ Quiet s t)
        ∧ exec (.testPortAccess (.read p h a)) s = exec (.registerRead (65 + p) a 4) s
        ∧ exec (.testPortAccess (.write p h a v)) s = exec (.registerWrite (65 + p) a 4 (v.setWidth 64) false) s)
      ∧ (FMap.look 0 s.harts (4 * p + h) ≠ 3 → ∀ a v,
        exec (.testPortAccess (.read p h a)) s = .next (settle s) ∧ exec (.testPortAccess (.write p h a v)) s = .next (settle s))))
  ∧ (∀ (s : State) (n : Nat) (levels : Option Nat),
      let captured := b2n (!s.pins.perst) + b2n (!hostIrqLow s) * 2 + b2n (!faultLow s) * 4 + b2n (!thermtripLow s) * 8 + b2n s.pins.straps.hostBoot * 16
        + s.pins.straps.mgmtAddr % 4 * 32 + b2n s.pins.straps.test * 128 + n * 256
      exec (.testPortAccess (.sample n)) s = .next { s with reply := { value := BitVec.ofNat 64 captured } }
      ∧ exec (.testPortAccess (.drive levels)) s = .next { s with pins := { s.pins with scan := levels } })

/-- The SPDM requests (R482, R483, R486): over a path that is up, GET_VERSION starts the transcript anew, GET_CAPABILITIES,
NEGOTIATE_ALGORITHMS, GET_DIGESTS and GET_CERTIFICATE extend it, CHALLENGE and GET_MEASUREMENTS sign its SHA-384 hash, and GET_SLH_SIG signs
the same hash with the other key; a malformed request over MCTP is dropped with MSG_DROP. -/
def Obligations.AttestationSignsItsTranscript : Prop :=
  ∀ (s : State) (via : SpdmPath) (req : List Byte), Live s = true → pathUp s via = true →
    (requestOk 0x84 req = true →
      let r := Config.mgmtResponse 0x84 (req ++ [])
      ∃ t, exec (.getVersion via req) s = .next t ∧ t.mgmt = { s.mgmt with transcript := req ++ r, signed := none } ∧ Msg.spdm via r ∈ t.sent ∧ Quiet s t)
    ∧ (∀ (i : Instr) (code : Nat) (d : List Byte), (i = .getCapabilities via req ∧ code = 0xE1 ∧ d = [])
        ∨ (i = .negotiateAlgorithms via req ∧ code = 0xE3 ∧ d = []) ∨ (i = .getDigests via req ∧ code = 0x81 ∧ d = [])
        ∨ (∃ slot, i = .getCertificate via slot req ∧ code = 0x82 ∧ d = leBytes 1 slot) → requestOk code req = true →
      let r := Config.mgmtResponse code (req ++ d)
      ∃ t, exec i s = .next t ∧ t.mgmt = { s.mgmt with transcript := s.mgmt.transcript ++ req ++ r } ∧ Msg.spdm via r ∈ t.sent ∧ Quiet s t)
    ∧ (∀ (i : Instr) (code : Nat) (d : List Byte), (∃ slot, i = .challenge via slot req ∧ code = 0x83 ∧ d = leBytes 1 slot)
        ∨ (∃ slot ix, i = .getMeasurements via slot ix req ∧ code = 0xE0 ∧ d = leBytes 1 slot ++ measurements s ix) → requestOk code req = true →
      let r := Config.mgmtResponse code (req ++ d)
      let h := sha384 (s.mgmt.transcript ++ req ++ r)
      ∃ t, exec i s = .next t ∧ t.mgmt = { s.mgmt with transcript := [], signed := some h } ∧ Msg.spdm via (r ++ Config.attestSign 0 h) ∈ t.sent ∧ Quiet s t)
    ∧ (∀ h, requestOk 0xFE req = true → s.mgmt.signed = some h →
      ∃ t, exec (.getSlhSig via req) s = .next t ∧ t.mgmt = s.mgmt ∧ Msg.spdm via (Config.attestSign 1 h) ∈ t.sent ∧ Quiet s t)
    ∧ (∀ (i : Instr) (code : Nat) (slot ix : Nat), (i, code) ∈ [(Instr.getVersion via req, 0x84), (.getCapabilities via req, 0xE1),
          (.negotiateAlgorithms via req, 0xE3), (.getDigests via req, 0x81), (.getCertificate via slot req, 0x82), (.challenge via slot req, 0x83),
          (.getMeasurements via slot ix req, 0xE0), (.getSlhSig via req, 0xFE)] → requestOk code req = false →
      ∃ t, exec i s = .next t ∧ t.mgmt = s.mgmt ∧ (via ≠ .doe → t.regBit .mgt 0x14 0 = true) ∧ Quiet s t)

/-! ## Register accesses -/

/-- REGISTER_WRITE and REGISTER_READ (R9, R11, R12, R361, R363, R372): a write of a register that only stores takes its RW and W1C fields, but
for W1C bits that the same tick has set, and leaves every other register; a read by the physical function answers the register's view, and that
of a register with RC fields the count before this tick, leaving this tick's increments; a read of a _LO half latches its _HI half for the next
access; a bad size or place is ACCESS_SIZE and changes nothing else; a poisoned write is an error. -/
def Obligations.RegisterAccessesReadAndWrite : Prop :=
  ∀ (s : State) (addr : Nat) (b : Blk) (off : Nat) (v : DWord), Live s = true → blockAt addr = some (b, off) → addr < 0x40000000 → addr % 4 = 0 →
    ¬(0x10000000 ≤ addr ∧ addr < 0x20000000 ∧ 0x01800000 ≤ (addr - 0x10000000) % 0x02000000 ∧ (addr - 0x10000000) % 0x02000000 < 0x01A00000) →
    let latch (t : State) := (FMap.look {} t.fns 0).latch
    let counts : Bool := (b.fields off).any (·.acc == .rc)
    ((∃ p, b = .num p ∨ b = .sa p ∨ b = .eng p ∨ b = .skn p ∨ b = .thm p ∨ b = .ni p ∨ b = .d2d p ∨ b = .pnl p ∨ b = .mem) → 0x40 ≤ off →
        writable s b = true → (b.fields off).isEmpty = false →
      let fresh := (FMap.look 0 s.setNow addr).toNat
      ∃ t, exec (.registerWrite 0 addr 4 v false) s = .next t
        ∧ t.reg b off = BitVec.ofNat 32 (writeFields (b.fields off) (s.regN b off) (keepNew (b.fields off) (v.toNat % 2 ^ 32) fresh))
        ∧ (∀ c o, c.base + o ≠ addr → t.reg c o = s.reg c o) ∧ latch t = none ∧ Quiet s t)
    ∧ ((∀ p, b ≠ .icu p) → latch s = none →
      (counts = false ∨ writable s b = false →
        ∃ t, exec (.registerRead 0 addr 4) s = .next t ∧ t.reply.value = BitVec.ofNat 64 (view s b off) ∧ t.regs = s.regs ∧ Quiet s t
          ∧ (b.hiOf off = none → latch t = none) ∧ (∀ hi, b.hiOf off = some hi → latch t = some (addr + 4, BitVec.ofNat 32 (view s b hi))))
      ∧ (counts = true → writable s b = true →
        let n := FMap.look (s.regN b off, 0) s.incNow addr
        ∃ t, exec (.registerRead 0 addr 4) s = .next t ∧ t.reply.value = BitVec.ofNat 64 n.1 ∧ t.regN b off = Nat.min n.2 0xFFFFFFFF
          ∧ (∀ c o, c.base + o ≠ addr → t.reg c o = s.reg c o) ∧ Quiet s t))
    ∧ (∀ held, latch s = some (addr, held) → blkPresent s b = true →
      ∃ t, exec (.registerRead 0 addr 4) s = .next t ∧ t.reply.value = held.setWidth 64 ∧ t.regs = s.regs ∧ latch t = none ∧ Quiet s t)
    ∧ (∀ a size, accessOk a size = false →
      (∃ t, exec (.registerWrite 0 a size v false) s = .next t ∧ t.regBit .host 0x14 2 = true ∧ Quiet s t)
      ∧ (∃ t, exec (.registerRead 0 a size) s = .next t ∧ t.regBit .host 0x14 2 = true ∧ t.reply.value = 0 ∧ Quiet s t))
    ∧ (∀ fn a size, ∃ t, exec (.registerWrite fn a size v true) s = .next t ∧ t.regBit .host 0x14 1 = true ∧ Quiet s t)

/-- A panel site that the grade does not use (R4), and a core page of a disabled slot (R22): a read of its window, by the physical
function or a hart, answers 0, and a write changes no register, no memory and no core, and records no error. -/
def Obligations.AbsentPanelsAndSlotsAreSilent : Prop :=
  ∀ (s : State) (fn p w size : Nat) (v : DWord), Live s = true → fn = 0 ∨ 65 ≤ fn → p < 8 → w < 0x02000000 →
    s.fuses.panels ≤ p ∨ (∃ c, c < 288 ∧ slotEnabled s p c = false ∧ 0x10000 * (64 + c) ≤ w ∧ w < 0x10000 * (65 + c)) →
    let addr := 0x10000000 + 0x02000000 * p + w
    accessOk addr size = true →
    (∃ t, exec (.registerRead fn addr size) s = .next t ∧ t.reply.value = 0 ∧ t.regs = s.regs ∧ Quiet s t)
    ∧ (∃ t, exec (.registerWrite fn addr size v false) s = .next t ∧ t.regs = s.regs ∧ t.cnt = s.cnt ∧ t.flt = s.flt ∧ Quiet s t)
end

