-- ==== Sys2Proof/Laws/Map.lean ====
section
/-! SUPPORT. Sparse maps and byte memories: what is read after a write, and that every operation keeps the canonical form. -/

namespace Sys2Proof

variable {α : Type}

/-! ## Reads after writes -/

@[simp] theorem FMap.look_nil (d : α) (k : Nat) : FMap.look d [] k = d := rfl

theorem FMap.look_without (d : α) (m : FMap α) (k j : Nat) :
    FMap.look d (m.filter fun e => e.1 != k) j = if j = k then d else FMap.look d m j := by
  induction m with
  | nil => simp
  | cons e m ih =>
    obtain ⟨i, w⟩ := e
    by_cases h : i = k
    · subst h
      have : (decide (i = i) && false) = false := by simp
      simp only [List.filter, bne_self_eq_false, ih, FMap.look]
      by_cases hj : j = i
      · simp [hj]
      · simp [hj, Ne.symm hj]
    · have hb : (i != k) = true := by simpa using h
      simp only [List.filter, hb, FMap.look, ih]
      by_cases hj : i = j
      · subst hj; simp [h]
      · simp [hj]

theorem FMap.look_place (d : α) (m : FMap α) (k j : Nat) (v : α) :
    FMap.look d (FMap.place m k v) j = if j = k then v else FMap.look d m j := by
  have flip : ∀ i : Nat, (i = j) = (j = i) := fun i => propext ⟨Eq.symm, Eq.symm⟩
  induction m with
  | nil => simp only [FMap.place, FMap.look, flip]
  | cons e m ih =>
    obtain ⟨i, w⟩ := e
    simp only [FMap.place]
    by_cases h : i = k
    · subst h
      rw [if_pos rfl]
      simp only [FMap.look, flip]
      by_cases hj : j = i <;> simp [hj]
    · rw [if_neg h]
      by_cases hk : k < i
      · rw [if_pos hk]
        simp only [FMap.look, flip]
      · rw [if_neg hk]
        simp only [FMap.look, ih, flip]
        by_cases hj : j = i
        · subst hj; simp [h]
        · simp [hj]

/-- A read after a write gives the value written at its key, and every other key keeps its value. -/
@[simp] theorem FMap.look_put [DecidableEq α] (d : α) (m : FMap α) (k j : Nat) (v : α) :
    FMap.look d (FMap.put d m k v) j = if j = k then v else FMap.look d m j := by
  unfold FMap.put
  split
  · next h => rw [FMap.look_without, h]
  · rw [FMap.look_place]

/-! ## The canonical form -/

/-- Whether a lower bound lets a key come next. -/
def FMap.above (lo : Option Nat) (k : Nat) : Prop := ∀ l, lo = some l → l < k

theorem FMap.wfFrom_cons [DecidableEq α] (d : α) (lo : Option Nat) (k : Nat) (v : α) (m : FMap α) :
    FMap.wfFrom d lo ((k, v) :: m) = true ↔ FMap.above lo k ∧ v ≠ d ∧ FMap.wfFrom d (some k) m = true := by
  cases lo <;> simp [FMap.wfFrom, FMap.above, and_assoc]

theorem FMap.wfFrom_mono [DecidableEq α] (d : α) (lo lo' : Option Nat) (h : ∀ k, FMap.above lo k → FMap.above lo' k) (m : FMap α)
    (hm : FMap.wfFrom d lo m = true) : FMap.wfFrom d lo' m = true := by
  cases m with
  | nil => rfl
  | cons e m =>
    obtain ⟨i, w⟩ := e
    rw [FMap.wfFrom_cons] at *
    exact ⟨h _ hm.1, hm.2⟩

theorem FMap.wfFrom_filter [DecidableEq α] (d : α) (p : Nat × α → Bool) (m : FMap α) :
    ∀ lo, FMap.wfFrom d lo m = true → FMap.wfFrom d lo (m.filter p) = true := by
  induction m with
  | nil => intro lo _; rfl
  | cons e m ih =>
    intro lo h
    obtain ⟨i, w⟩ := e
    rw [FMap.wfFrom_cons] at h
    rw [List.filter_cons]
    split
    · rw [FMap.wfFrom_cons]; exact ⟨h.1, h.2.1, ih _ h.2.2⟩
    · refine FMap.wfFrom_mono d (some i) lo ?_ _ (ih _ h.2.2)
      intro k hk l hl
      have := hk i rfl
      have := h.1 l hl
      omega

theorem FMap.wfFrom_place [DecidableEq α] (d : α) (k : Nat) (v : α) (hv : v ≠ d) (m : FMap α) :
    ∀ lo, FMap.above lo k → FMap.wfFrom d lo m = true → FMap.wfFrom d lo (FMap.place m k v) = true := by
  induction m with
  | nil => intro lo h _; rw [FMap.place, FMap.wfFrom_cons]; exact ⟨h, hv, rfl⟩
  | cons e m ih =>
    intro lo hl hm
    obtain ⟨i, w⟩ := e
    rw [FMap.wfFrom_cons] at hm
    simp only [FMap.place]
    split
    · next h => subst h; rw [FMap.wfFrom_cons]; exact ⟨hl, hv, hm.2.2⟩
    · next h =>
      split
      · next hk =>
        rw [FMap.wfFrom_cons, FMap.wfFrom_cons]
        exact ⟨hl, hv, by intro l hl'; cases hl'; exact hk, hm.2⟩
      · next hk =>
        rw [FMap.wfFrom_cons]
        exact ⟨hm.1, hm.2.1, ih _ (by intro l hl'; cases hl'; omega) hm.2.2⟩

/-- A write keeps the canonical form. -/
theorem FMap.wf_put [DecidableEq α] (d : α) (m : FMap α) (k : Nat) (v : α) (h : FMap.wf d m = true) :
    FMap.wf d (FMap.put d m k v) = true := by
  unfold FMap.put
  split
  · exact FMap.wfFrom_filter d _ m none h
  · next hv => exact FMap.wfFrom_place d k v hv m none (by intro l hl; cases hl) h

@[simp] theorem FMap.wf_nil [DecidableEq α] (d : α) : FMap.wf d [] = true := rfl

/-! ## Byte memories -/

@[simp] theorem Mem.byte_nil (a : Nat) : Mem.byte [] a = 0 := rfl

@[simp] theorem Mem.byte_setByte (m : Mem) (a j : Nat) (b : Byte) : Mem.byte (Mem.setByte m a b) j = if j = a then b else Mem.byte m j :=
  FMap.look_put _ _ _ _ _

/-- A byte inside a stored list is the list's, and every other byte is as before. -/
theorem Mem.byte_store (bs : List Byte) : ∀ (m : Mem) (a j : Nat),
    Mem.byte (Mem.store m a bs) j = if a ≤ j ∧ j < a + bs.length then bs.getD (j - a) 0 else Mem.byte m j := by
  induction bs with
  | nil => intro m a j; simp only [Mem.store, List.length_nil]; rw [if_neg (by omega)]
  | cons b bs ih =>
    intro m a j
    simp only [Mem.store, ih, Mem.byte_setByte, List.length_cons]
    by_cases h1 : j = a
    · subst h1
      rw [if_neg (by omega), if_pos rfl, if_pos (by omega)]
      simp
    · by_cases h2 : a ≤ j ∧ j < a + (bs.length + 1)
      · rw [if_pos (by omega), if_pos h2]
        obtain ⟨n, rfl⟩ : ∃ n, j = a + 1 + n := ⟨j - a - 1, by omega⟩
        simp [show a + 1 + n - a = n + 1 by omega]
      · rw [if_neg (by omega), if_neg h1, if_neg h2]

@[simp] theorem Mem.wf_nil : Mem.wf [] = true := rfl

theorem Mem.wf_setByte (m : Mem) (a : Nat) (b : Byte) (h : Mem.wf m = true) : Mem.wf (Mem.setByte m a b) = true := FMap.wf_put _ _ _ _ h

theorem Mem.wf_store (bs : List Byte) : ∀ (m : Mem) (a : Nat), Mem.wf m = true → Mem.wf (Mem.store m a bs) = true := by
  induction bs with
  | nil => intro m a h; exact h
  | cons b bs ih => intro m a h; exact ih _ _ (Mem.wf_setByte m a b h)

theorem Mem.wf_zero (m : Mem) (a n : Nat) (h : Mem.wf m = true) : Mem.wf (Mem.zero m a n) = true := Mem.wf_store _ _ _ h

theorem Mem.wf_filter (p : Nat × Byte → Bool) (m : Mem) (h : Mem.wf m = true) : Mem.wf (m.filter p) = true := FMap.wfFrom_filter _ p m none h

theorem Mem.wf_forget (m : Mem) (a n : Nat) (h : Mem.wf m = true) : Mem.wf (Mem.forget m a n) = true := Mem.wf_filter _ m h

theorem Mem.bytes_length (m : Mem) (n : Nat) : ∀ a, (Mem.bytes m a n).length = n := by
  induction n with
  | zero => intro a; rfl
  | succ n ih => intro a; simp [Mem.bytes, ih]

/-- The bytes of a list that has been stored. -/
theorem Mem.bytes_store (m : Mem) (a : Nat) (bs : List Byte) : Mem.bytes (Mem.store m a bs) a bs.length = bs := by
  induction bs generalizing m a with
  | nil => rfl
  | cons b bs ih =>
    simp only [List.length_cons, Mem.bytes, Mem.store]
    rw [ih, Mem.byte_store, if_neg (by omega), Mem.byte_setByte, if_pos rfl]

end Sys2Proof
end

