-- ==== Sys2Proof/Laws/State.lean ====
section
/-! SUPPORT. What each update of the state changes: one law per field that it leaves, so that no proof unfolds a record update, and for
every keyed part what is read after it is written. -/

namespace Sys2Proof.Machine

variable (s : State)

/-! ## `setReg`: it changes `regs` alone -/

@[simp] theorem State.setReg_pending (b : Blk) (o : Nat) (v : Word) : (s.setReg b o v).pending = s.pending := rfl
@[simp] theorem State.setReg_fuses (b : Blk) (o : Nat) (v : Word) : (s.setReg b o v).fuses = s.fuses := rfl
@[simp] theorem State.setReg_wall (b : Blk) (o : Nat) (v : Word) : (s.setReg b o v).wall = s.wall := rfl
@[simp] theorem State.setReg_ptc (b : Blk) (o : Nat) (v : Word) : (s.setReg b o v).ptc = s.ptc := rfl
@[simp] theorem State.setReg_time (b : Blk) (o : Nat) (v : Word) : (s.setReg b o v).time = s.time := rfl
@[simp] theorem State.setReg_clk (b : Blk) (o : Nat) (v : Word) : (s.setReg b o v).clk = s.clk := rfl
@[simp] theorem State.setReg_pins (b : Blk) (o : Nat) (v : Word) : (s.setReg b o v).pins = s.pins := rfl
@[simp] theorem State.setReg_cnt (b : Blk) (o : Nat) (v : Word) : (s.setReg b o v).cnt = s.cnt := rfl
@[simp] theorem State.setReg_faultAt (b : Blk) (o : Nat) (v : Word) : (s.setReg b o v).faultAt = s.faultAt := rfl
@[simp] theorem State.setReg_cores (b : Blk) (o : Nat) (v : Word) : (s.setReg b o v).cores = s.cores := rfl
@[simp] theorem State.setReg_shared (b : Blk) (o : Nat) (v : Word) : (s.setReg b o v).shared = s.shared := rfl
@[simp] theorem State.setReg_skein (b : Blk) (o : Nat) (v : Word) : (s.setReg b o v).skein = s.skein := rfl
@[simp] theorem State.setReg_hbm (b : Blk) (o : Nat) (v : Word) : (s.setReg b o v).hbm = s.hbm := rfl
@[simp] theorem State.setReg_stashMem (b : Blk) (o : Nat) (v : Word) : (s.setReg b o v).stashMem = s.stashMem := rfl
@[simp] theorem State.setReg_sram (b : Blk) (o : Nat) (v : Word) : (s.setReg b o v).sram = s.sram := rfl
@[simp] theorem State.setReg_hostMem (b : Blk) (o : Nat) (v : Word) : (s.setReg b o v).hostMem = s.hostMem := rfl
@[simp] theorem State.setReg_bootMem (b : Blk) (o : Nat) (v : Word) : (s.setReg b o v).bootMem = s.bootMem := rfl
@[simp] theorem State.setReg_bbMem (b : Blk) (o : Nat) (v : Word) : (s.setReg b o v).bbMem = s.bbMem := rfl
@[simp] theorem State.setReg_hold (b : Blk) (o : Nat) (v : Word) : (s.setReg b o v).hold = s.hold := rfl
@[simp] theorem State.setReg_nextHold (b : Blk) (o : Nat) (v : Word) : (s.setReg b o v).nextHold = s.nextHold := rfl
@[simp] theorem State.setReg_holdSeq (b : Blk) (o : Nat) (v : Word) : (s.setReg b o v).holdSeq = s.holdSeq := rfl
@[simp] theorem State.setReg_holdLog (b : Blk) (o : Nat) (v : Word) : (s.setReg b o v).holdLog = s.holdLog := rfl
@[simp] theorem State.setReg_windows (b : Blk) (o : Nat) (v : Word) : (s.setReg b o v).windows = s.windows := rfl
@[simp] theorem State.setReg_level (b : Blk) (o : Nat) (v : Word) : (s.setReg b o v).level = s.level := rfl
@[simp] theorem State.setReg_hbmStacks (b : Blk) (o : Nat) (v : Word) : (s.setReg b o v).hbmStacks = s.hbmStacks := rfl
@[simp] theorem State.setReg_hostReads (b : Blk) (o : Nat) (v : Word) : (s.setReg b o v).hostReads = s.hostReads := rfl
@[simp] theorem State.setReg_stashes (b : Blk) (o : Nat) (v : Word) : (s.setReg b o v).stashes = s.stashes := rfl
@[simp] theorem State.setReg_scrubPos (b : Blk) (o : Nat) (v : Word) : (s.setReg b o v).scrubPos = s.scrubPos := rfl
@[simp] theorem State.setReg_scrubFrom (b : Blk) (o : Nat) (v : Word) : (s.setReg b o v).scrubFrom = s.scrubFrom := rfl
@[simp] theorem State.setReg_nodes (b : Blk) (o : Nat) (v : Word) : (s.setReg b o v).nodes = s.nodes := rfl
@[simp] theorem State.setReg_castMsgs (b : Blk) (o : Nat) (v : Word) : (s.setReg b o v).castMsgs = s.castMsgs := rfl
@[simp] theorem State.setReg_castSt (b : Blk) (o : Nat) (v : Word) : (s.setReg b o v).castSt = s.castSt := rfl
@[simp] theorem State.setReg_castDeferred (b : Blk) (o : Nat) (v : Word) : (s.setReg b o v).castDeferred = s.castDeferred := rfl
@[simp] theorem State.setReg_jobLive (b : Blk) (o : Nat) (v : Word) : (s.setReg b o v).jobLive = s.jobLive := rfl
@[simp] theorem State.setReg_castRelease (b : Blk) (o : Nat) (v : Word) : (s.setReg b o v).castRelease = s.castRelease := rfl
@[simp] theorem State.setReg_bind (b : Blk) (o : Nat) (v : Word) : (s.setReg b o v).bind = s.bind := rfl
@[simp] theorem State.setReg_links (b : Blk) (o : Nat) (v : Word) : (s.setReg b o v).links = s.links := rfl
@[simp] theorem State.setReg_niBufs (b : Blk) (o : Nat) (v : Word) : (s.setReg b o v).niBufs = s.niBufs := rfl
@[simp] theorem State.setReg_rankTables (b : Blk) (o : Nat) (v : Word) : (s.setReg b o v).rankTables = s.rankTables := rfl
@[simp] theorem State.setReg_niOwn (b : Blk) (o : Nat) (v : Word) : (s.setReg b o v).niOwn = s.niOwn := rfl
@[simp] theorem State.setReg_srv (b : Blk) (o : Nat) (v : Word) : (s.setReg b o v).srv = s.srv := rfl
@[simp] theorem State.setReg_fns (b : Blk) (o : Nat) (v : Word) : (s.setReg b o v).fns = s.fns := rfl
@[simp] theorem State.setReg_hostWaits (b : Blk) (o : Nat) (v : Word) : (s.setReg b o v).hostWaits = s.hostWaits := rfl
@[simp] theorem State.setReg_rowSets (b : Blk) (o : Nat) (v : Word) : (s.setReg b o v).rowSets = s.rowSets := rfl
@[simp] theorem State.setReg_rowOps (b : Blk) (o : Nat) (v : Word) : (s.setReg b o v).rowOps = s.rowOps := rfl
@[simp] theorem State.setReg_crossings (b : Blk) (o : Nat) (v : Word) : (s.setReg b o v).crossings = s.crossings := rfl
@[simp] theorem State.setReg_d2dBuf (b : Blk) (o : Nat) (v : Word) : (s.setReg b o v).d2dBuf = s.d2dBuf := rfl
@[simp] theorem State.setReg_landed (b : Blk) (o : Nat) (v : Word) : (s.setReg b o v).landed = s.landed := rfl
@[simp] theorem State.setReg_setNow (b : Blk) (o : Nat) (v : Word) : (s.setReg b o v).setNow = s.setNow := rfl
@[simp] theorem State.setReg_incNow (b : Blk) (o : Nat) (v : Word) : (s.setReg b o v).incNow = s.incNow := rfl
@[simp] theorem State.setReg_numWas (b : Blk) (o : Nat) (v : Word) : (s.setReg b o v).numWas = s.numWas := rfl
@[simp] theorem State.setReg_skErr (b : Blk) (o : Nat) (v : Word) : (s.setReg b o v).skErr = s.skErr := rfl
@[simp] theorem State.setReg_hostGrants (b : Blk) (o : Nat) (v : Word) : (s.setReg b o v).hostGrants = s.hostGrants := rfl
@[simp] theorem State.setReg_icus (b : Blk) (o : Nat) (v : Word) : (s.setReg b o v).icus = s.icus := rfl
@[simp] theorem State.setReg_doms (b : Blk) (o : Nat) (v : Word) : (s.setReg b o v).doms = s.doms := rfl
@[simp] theorem State.setReg_thms (b : Blk) (o : Nat) (v : Word) : (s.setReg b o v).thms = s.thms := rfl
@[simp] theorem State.setReg_d2ds (b : Blk) (o : Nat) (v : Word) : (s.setReg b o v).d2ds = s.d2ds := rfl
@[simp] theorem State.setReg_boot (b : Blk) (o : Nat) (v : Word) : (s.setReg b o v).boot = s.boot := rfl
@[simp] theorem State.setReg_flt (b : Blk) (o : Nat) (v : Word) : (s.setReg b o v).flt = s.flt := rfl
@[simp] theorem State.setReg_evrs (b : Blk) (o : Nat) (v : Word) : (s.setReg b o v).evrs = s.evrs := rfl
@[simp] theorem State.setReg_harts (b : Blk) (o : Nat) (v : Word) : (s.setReg b o v).harts = s.harts := rfl
@[simp] theorem State.setReg_ccKick (b : Blk) (o : Nat) (v : Word) : (s.setReg b o v).ccKick = s.ccKick := rfl
@[simp] theorem State.setReg_mgmt (b : Blk) (o : Nat) (v : Word) : (s.setReg b o v).mgmt = s.mgmt := rfl
@[simp] theorem State.setReg_sent (b : Blk) (o : Nat) (v : Word) : (s.setReg b o v).sent = s.sent := rfl
@[simp] theorem State.setReg_reply (b : Blk) (o : Nat) (v : Word) : (s.setReg b o v).reply = s.reply := rfl

/-! ## `noteSet`: it changes `setNow` alone -/

@[simp] theorem State.noteSet_pending (b : Blk) (o v : Nat) : (s.noteSet b o v).pending = s.pending := rfl
@[simp] theorem State.noteSet_fuses (b : Blk) (o v : Nat) : (s.noteSet b o v).fuses = s.fuses := rfl
@[simp] theorem State.noteSet_wall (b : Blk) (o v : Nat) : (s.noteSet b o v).wall = s.wall := rfl
@[simp] theorem State.noteSet_ptc (b : Blk) (o v : Nat) : (s.noteSet b o v).ptc = s.ptc := rfl
@[simp] theorem State.noteSet_time (b : Blk) (o v : Nat) : (s.noteSet b o v).time = s.time := rfl
@[simp] theorem State.noteSet_clk (b : Blk) (o v : Nat) : (s.noteSet b o v).clk = s.clk := rfl
@[simp] theorem State.noteSet_pins (b : Blk) (o v : Nat) : (s.noteSet b o v).pins = s.pins := rfl
@[simp] theorem State.noteSet_regs (b : Blk) (o v : Nat) : (s.noteSet b o v).regs = s.regs := rfl
@[simp] theorem State.noteSet_cnt (b : Blk) (o v : Nat) : (s.noteSet b o v).cnt = s.cnt := rfl
@[simp] theorem State.noteSet_faultAt (b : Blk) (o v : Nat) : (s.noteSet b o v).faultAt = s.faultAt := rfl
@[simp] theorem State.noteSet_cores (b : Blk) (o v : Nat) : (s.noteSet b o v).cores = s.cores := rfl
@[simp] theorem State.noteSet_shared (b : Blk) (o v : Nat) : (s.noteSet b o v).shared = s.shared := rfl
@[simp] theorem State.noteSet_skein (b : Blk) (o v : Nat) : (s.noteSet b o v).skein = s.skein := rfl
@[simp] theorem State.noteSet_hbm (b : Blk) (o v : Nat) : (s.noteSet b o v).hbm = s.hbm := rfl
@[simp] theorem State.noteSet_stashMem (b : Blk) (o v : Nat) : (s.noteSet b o v).stashMem = s.stashMem := rfl
@[simp] theorem State.noteSet_sram (b : Blk) (o v : Nat) : (s.noteSet b o v).sram = s.sram := rfl
@[simp] theorem State.noteSet_hostMem (b : Blk) (o v : Nat) : (s.noteSet b o v).hostMem = s.hostMem := rfl
@[simp] theorem State.noteSet_bootMem (b : Blk) (o v : Nat) : (s.noteSet b o v).bootMem = s.bootMem := rfl
@[simp] theorem State.noteSet_bbMem (b : Blk) (o v : Nat) : (s.noteSet b o v).bbMem = s.bbMem := rfl
@[simp] theorem State.noteSet_hold (b : Blk) (o v : Nat) : (s.noteSet b o v).hold = s.hold := rfl
@[simp] theorem State.noteSet_nextHold (b : Blk) (o v : Nat) : (s.noteSet b o v).nextHold = s.nextHold := rfl
@[simp] theorem State.noteSet_holdSeq (b : Blk) (o v : Nat) : (s.noteSet b o v).holdSeq = s.holdSeq := rfl
@[simp] theorem State.noteSet_holdLog (b : Blk) (o v : Nat) : (s.noteSet b o v).holdLog = s.holdLog := rfl
@[simp] theorem State.noteSet_windows (b : Blk) (o v : Nat) : (s.noteSet b o v).windows = s.windows := rfl
@[simp] theorem State.noteSet_level (b : Blk) (o v : Nat) : (s.noteSet b o v).level = s.level := rfl
@[simp] theorem State.noteSet_hbmStacks (b : Blk) (o v : Nat) : (s.noteSet b o v).hbmStacks = s.hbmStacks := rfl
@[simp] theorem State.noteSet_hostReads (b : Blk) (o v : Nat) : (s.noteSet b o v).hostReads = s.hostReads := rfl
@[simp] theorem State.noteSet_stashes (b : Blk) (o v : Nat) : (s.noteSet b o v).stashes = s.stashes := rfl
@[simp] theorem State.noteSet_scrubPos (b : Blk) (o v : Nat) : (s.noteSet b o v).scrubPos = s.scrubPos := rfl
@[simp] theorem State.noteSet_scrubFrom (b : Blk) (o v : Nat) : (s.noteSet b o v).scrubFrom = s.scrubFrom := rfl
@[simp] theorem State.noteSet_nodes (b : Blk) (o v : Nat) : (s.noteSet b o v).nodes = s.nodes := rfl
@[simp] theorem State.noteSet_castMsgs (b : Blk) (o v : Nat) : (s.noteSet b o v).castMsgs = s.castMsgs := rfl
@[simp] theorem State.noteSet_castSt (b : Blk) (o v : Nat) : (s.noteSet b o v).castSt = s.castSt := rfl
@[simp] theorem State.noteSet_castDeferred (b : Blk) (o v : Nat) : (s.noteSet b o v).castDeferred = s.castDeferred := rfl
@[simp] theorem State.noteSet_jobLive (b : Blk) (o v : Nat) : (s.noteSet b o v).jobLive = s.jobLive := rfl
@[simp] theorem State.noteSet_castRelease (b : Blk) (o v : Nat) : (s.noteSet b o v).castRelease = s.castRelease := rfl
@[simp] theorem State.noteSet_bind (b : Blk) (o v : Nat) : (s.noteSet b o v).bind = s.bind := rfl
@[simp] theorem State.noteSet_links (b : Blk) (o v : Nat) : (s.noteSet b o v).links = s.links := rfl
@[simp] theorem State.noteSet_niBufs (b : Blk) (o v : Nat) : (s.noteSet b o v).niBufs = s.niBufs := rfl
@[simp] theorem State.noteSet_rankTables (b : Blk) (o v : Nat) : (s.noteSet b o v).rankTables = s.rankTables := rfl
@[simp] theorem State.noteSet_niOwn (b : Blk) (o v : Nat) : (s.noteSet b o v).niOwn = s.niOwn := rfl
@[simp] theorem State.noteSet_srv (b : Blk) (o v : Nat) : (s.noteSet b o v).srv = s.srv := rfl
@[simp] theorem State.noteSet_fns (b : Blk) (o v : Nat) : (s.noteSet b o v).fns = s.fns := rfl
@[simp] theorem State.noteSet_hostWaits (b : Blk) (o v : Nat) : (s.noteSet b o v).hostWaits = s.hostWaits := rfl
@[simp] theorem State.noteSet_rowSets (b : Blk) (o v : Nat) : (s.noteSet b o v).rowSets = s.rowSets := rfl
@[simp] theorem State.noteSet_rowOps (b : Blk) (o v : Nat) : (s.noteSet b o v).rowOps = s.rowOps := rfl
@[simp] theorem State.noteSet_crossings (b : Blk) (o v : Nat) : (s.noteSet b o v).crossings = s.crossings := rfl
@[simp] theorem State.noteSet_d2dBuf (b : Blk) (o v : Nat) : (s.noteSet b o v).d2dBuf = s.d2dBuf := rfl
@[simp] theorem State.noteSet_landed (b : Blk) (o v : Nat) : (s.noteSet b o v).landed = s.landed := rfl
@[simp] theorem State.noteSet_incNow (b : Blk) (o v : Nat) : (s.noteSet b o v).incNow = s.incNow := rfl
@[simp] theorem State.noteSet_numWas (b : Blk) (o v : Nat) : (s.noteSet b o v).numWas = s.numWas := rfl
@[simp] theorem State.noteSet_skErr (b : Blk) (o v : Nat) : (s.noteSet b o v).skErr = s.skErr := rfl
@[simp] theorem State.noteSet_hostGrants (b : Blk) (o v : Nat) : (s.noteSet b o v).hostGrants = s.hostGrants := rfl
@[simp] theorem State.noteSet_icus (b : Blk) (o v : Nat) : (s.noteSet b o v).icus = s.icus := rfl
@[simp] theorem State.noteSet_doms (b : Blk) (o v : Nat) : (s.noteSet b o v).doms = s.doms := rfl
@[simp] theorem State.noteSet_thms (b : Blk) (o v : Nat) : (s.noteSet b o v).thms = s.thms := rfl
@[simp] theorem State.noteSet_d2ds (b : Blk) (o v : Nat) : (s.noteSet b o v).d2ds = s.d2ds := rfl
@[simp] theorem State.noteSet_boot (b : Blk) (o v : Nat) : (s.noteSet b o v).boot = s.boot := rfl
@[simp] theorem State.noteSet_flt (b : Blk) (o v : Nat) : (s.noteSet b o v).flt = s.flt := rfl
@[simp] theorem State.noteSet_evrs (b : Blk) (o v : Nat) : (s.noteSet b o v).evrs = s.evrs := rfl
@[simp] theorem State.noteSet_harts (b : Blk) (o v : Nat) : (s.noteSet b o v).harts = s.harts := rfl
@[simp] theorem State.noteSet_ccKick (b : Blk) (o v : Nat) : (s.noteSet b o v).ccKick = s.ccKick := rfl
@[simp] theorem State.noteSet_mgmt (b : Blk) (o v : Nat) : (s.noteSet b o v).mgmt = s.mgmt := rfl
@[simp] theorem State.noteSet_sent (b : Blk) (o v : Nat) : (s.noteSet b o v).sent = s.sent := rfl
@[simp] theorem State.noteSet_reply (b : Blk) (o v : Nat) : (s.noteSet b o v).reply = s.reply := rfl

/-! ## `noteInc`: it changes `incNow` alone -/

@[simp] theorem State.noteInc_pending (b : Blk) (o n : Nat) : (s.noteInc b o n).pending = s.pending := rfl
@[simp] theorem State.noteInc_fuses (b : Blk) (o n : Nat) : (s.noteInc b o n).fuses = s.fuses := rfl
@[simp] theorem State.noteInc_wall (b : Blk) (o n : Nat) : (s.noteInc b o n).wall = s.wall := rfl
@[simp] theorem State.noteInc_ptc (b : Blk) (o n : Nat) : (s.noteInc b o n).ptc = s.ptc := rfl
@[simp] theorem State.noteInc_time (b : Blk) (o n : Nat) : (s.noteInc b o n).time = s.time := rfl
@[simp] theorem State.noteInc_clk (b : Blk) (o n : Nat) : (s.noteInc b o n).clk = s.clk := rfl
@[simp] theorem State.noteInc_pins (b : Blk) (o n : Nat) : (s.noteInc b o n).pins = s.pins := rfl
@[simp] theorem State.noteInc_regs (b : Blk) (o n : Nat) : (s.noteInc b o n).regs = s.regs := rfl
@[simp] theorem State.noteInc_cnt (b : Blk) (o n : Nat) : (s.noteInc b o n).cnt = s.cnt := rfl
@[simp] theorem State.noteInc_faultAt (b : Blk) (o n : Nat) : (s.noteInc b o n).faultAt = s.faultAt := rfl
@[simp] theorem State.noteInc_cores (b : Blk) (o n : Nat) : (s.noteInc b o n).cores = s.cores := rfl
@[simp] theorem State.noteInc_shared (b : Blk) (o n : Nat) : (s.noteInc b o n).shared = s.shared := rfl
@[simp] theorem State.noteInc_skein (b : Blk) (o n : Nat) : (s.noteInc b o n).skein = s.skein := rfl
@[simp] theorem State.noteInc_hbm (b : Blk) (o n : Nat) : (s.noteInc b o n).hbm = s.hbm := rfl
@[simp] theorem State.noteInc_stashMem (b : Blk) (o n : Nat) : (s.noteInc b o n).stashMem = s.stashMem := rfl
@[simp] theorem State.noteInc_sram (b : Blk) (o n : Nat) : (s.noteInc b o n).sram = s.sram := rfl
@[simp] theorem State.noteInc_hostMem (b : Blk) (o n : Nat) : (s.noteInc b o n).hostMem = s.hostMem := rfl
@[simp] theorem State.noteInc_bootMem (b : Blk) (o n : Nat) : (s.noteInc b o n).bootMem = s.bootMem := rfl
@[simp] theorem State.noteInc_bbMem (b : Blk) (o n : Nat) : (s.noteInc b o n).bbMem = s.bbMem := rfl
@[simp] theorem State.noteInc_hold (b : Blk) (o n : Nat) : (s.noteInc b o n).hold = s.hold := rfl
@[simp] theorem State.noteInc_nextHold (b : Blk) (o n : Nat) : (s.noteInc b o n).nextHold = s.nextHold := rfl
@[simp] theorem State.noteInc_holdSeq (b : Blk) (o n : Nat) : (s.noteInc b o n).holdSeq = s.holdSeq := rfl
@[simp] theorem State.noteInc_holdLog (b : Blk) (o n : Nat) : (s.noteInc b o n).holdLog = s.holdLog := rfl
@[simp] theorem State.noteInc_windows (b : Blk) (o n : Nat) : (s.noteInc b o n).windows = s.windows := rfl
@[simp] theorem State.noteInc_level (b : Blk) (o n : Nat) : (s.noteInc b o n).level = s.level := rfl
@[simp] theorem State.noteInc_hbmStacks (b : Blk) (o n : Nat) : (s.noteInc b o n).hbmStacks = s.hbmStacks := rfl
@[simp] theorem State.noteInc_hostReads (b : Blk) (o n : Nat) : (s.noteInc b o n).hostReads = s.hostReads := rfl
@[simp] theorem State.noteInc_stashes (b : Blk) (o n : Nat) : (s.noteInc b o n).stashes = s.stashes := rfl
@[simp] theorem State.noteInc_scrubPos (b : Blk) (o n : Nat) : (s.noteInc b o n).scrubPos = s.scrubPos := rfl
@[simp] theorem State.noteInc_scrubFrom (b : Blk) (o n : Nat) : (s.noteInc b o n).scrubFrom = s.scrubFrom := rfl
@[simp] theorem State.noteInc_nodes (b : Blk) (o n : Nat) : (s.noteInc b o n).nodes = s.nodes := rfl
@[simp] theorem State.noteInc_castMsgs (b : Blk) (o n : Nat) : (s.noteInc b o n).castMsgs = s.castMsgs := rfl
@[simp] theorem State.noteInc_castSt (b : Blk) (o n : Nat) : (s.noteInc b o n).castSt = s.castSt := rfl
@[simp] theorem State.noteInc_castDeferred (b : Blk) (o n : Nat) : (s.noteInc b o n).castDeferred = s.castDeferred := rfl
@[simp] theorem State.noteInc_jobLive (b : Blk) (o n : Nat) : (s.noteInc b o n).jobLive = s.jobLive := rfl
@[simp] theorem State.noteInc_castRelease (b : Blk) (o n : Nat) : (s.noteInc b o n).castRelease = s.castRelease := rfl
@[simp] theorem State.noteInc_bind (b : Blk) (o n : Nat) : (s.noteInc b o n).bind = s.bind := rfl
@[simp] theorem State.noteInc_links (b : Blk) (o n : Nat) : (s.noteInc b o n).links = s.links := rfl
@[simp] theorem State.noteInc_niBufs (b : Blk) (o n : Nat) : (s.noteInc b o n).niBufs = s.niBufs := rfl
@[simp] theorem State.noteInc_rankTables (b : Blk) (o n : Nat) : (s.noteInc b o n).rankTables = s.rankTables := rfl
@[simp] theorem State.noteInc_niOwn (b : Blk) (o n : Nat) : (s.noteInc b o n).niOwn = s.niOwn := rfl
@[simp] theorem State.noteInc_srv (b : Blk) (o n : Nat) : (s.noteInc b o n).srv = s.srv := rfl
@[simp] theorem State.noteInc_fns (b : Blk) (o n : Nat) : (s.noteInc b o n).fns = s.fns := rfl
@[simp] theorem State.noteInc_hostWaits (b : Blk) (o n : Nat) : (s.noteInc b o n).hostWaits = s.hostWaits := rfl
@[simp] theorem State.noteInc_rowSets (b : Blk) (o n : Nat) : (s.noteInc b o n).rowSets = s.rowSets := rfl
@[simp] theorem State.noteInc_rowOps (b : Blk) (o n : Nat) : (s.noteInc b o n).rowOps = s.rowOps := rfl
@[simp] theorem State.noteInc_crossings (b : Blk) (o n : Nat) : (s.noteInc b o n).crossings = s.crossings := rfl
@[simp] theorem State.noteInc_d2dBuf (b : Blk) (o n : Nat) : (s.noteInc b o n).d2dBuf = s.d2dBuf := rfl
@[simp] theorem State.noteInc_landed (b : Blk) (o n : Nat) : (s.noteInc b o n).landed = s.landed := rfl
@[simp] theorem State.noteInc_setNow (b : Blk) (o n : Nat) : (s.noteInc b o n).setNow = s.setNow := rfl
@[simp] theorem State.noteInc_numWas (b : Blk) (o n : Nat) : (s.noteInc b o n).numWas = s.numWas := rfl
@[simp] theorem State.noteInc_skErr (b : Blk) (o n : Nat) : (s.noteInc b o n).skErr = s.skErr := rfl
@[simp] theorem State.noteInc_hostGrants (b : Blk) (o n : Nat) : (s.noteInc b o n).hostGrants = s.hostGrants := rfl
@[simp] theorem State.noteInc_icus (b : Blk) (o n : Nat) : (s.noteInc b o n).icus = s.icus := rfl
@[simp] theorem State.noteInc_doms (b : Blk) (o n : Nat) : (s.noteInc b o n).doms = s.doms := rfl
@[simp] theorem State.noteInc_thms (b : Blk) (o n : Nat) : (s.noteInc b o n).thms = s.thms := rfl
@[simp] theorem State.noteInc_d2ds (b : Blk) (o n : Nat) : (s.noteInc b o n).d2ds = s.d2ds := rfl
@[simp] theorem State.noteInc_boot (b : Blk) (o n : Nat) : (s.noteInc b o n).boot = s.boot := rfl
@[simp] theorem State.noteInc_flt (b : Blk) (o n : Nat) : (s.noteInc b o n).flt = s.flt := rfl
@[simp] theorem State.noteInc_evrs (b : Blk) (o n : Nat) : (s.noteInc b o n).evrs = s.evrs := rfl
@[simp] theorem State.noteInc_harts (b : Blk) (o n : Nat) : (s.noteInc b o n).harts = s.harts := rfl
@[simp] theorem State.noteInc_ccKick (b : Blk) (o n : Nat) : (s.noteInc b o n).ccKick = s.ccKick := rfl
@[simp] theorem State.noteInc_mgmt (b : Blk) (o n : Nat) : (s.noteInc b o n).mgmt = s.mgmt := rfl
@[simp] theorem State.noteInc_sent (b : Blk) (o n : Nat) : (s.noteInc b o n).sent = s.sent := rfl
@[simp] theorem State.noteInc_reply (b : Blk) (o n : Nat) : (s.noteInc b o n).reply = s.reply := rfl

/-! ## `count`: it changes `cnt` alone -/

@[simp] theorem State.count_pending (b : Blk) (i : Nat) : (s.count b i).pending = s.pending := rfl
@[simp] theorem State.count_fuses (b : Blk) (i : Nat) : (s.count b i).fuses = s.fuses := rfl
@[simp] theorem State.count_wall (b : Blk) (i : Nat) : (s.count b i).wall = s.wall := rfl
@[simp] theorem State.count_ptc (b : Blk) (i : Nat) : (s.count b i).ptc = s.ptc := rfl
@[simp] theorem State.count_time (b : Blk) (i : Nat) : (s.count b i).time = s.time := rfl
@[simp] theorem State.count_clk (b : Blk) (i : Nat) : (s.count b i).clk = s.clk := rfl
@[simp] theorem State.count_pins (b : Blk) (i : Nat) : (s.count b i).pins = s.pins := rfl
@[simp] theorem State.count_regs (b : Blk) (i : Nat) : (s.count b i).regs = s.regs := rfl
@[simp] theorem State.count_faultAt (b : Blk) (i : Nat) : (s.count b i).faultAt = s.faultAt := rfl
@[simp] theorem State.count_cores (b : Blk) (i : Nat) : (s.count b i).cores = s.cores := rfl
@[simp] theorem State.count_shared (b : Blk) (i : Nat) : (s.count b i).shared = s.shared := rfl
@[simp] theorem State.count_skein (b : Blk) (i : Nat) : (s.count b i).skein = s.skein := rfl
@[simp] theorem State.count_hbm (b : Blk) (i : Nat) : (s.count b i).hbm = s.hbm := rfl
@[simp] theorem State.count_stashMem (b : Blk) (i : Nat) : (s.count b i).stashMem = s.stashMem := rfl
@[simp] theorem State.count_sram (b : Blk) (i : Nat) : (s.count b i).sram = s.sram := rfl
@[simp] theorem State.count_hostMem (b : Blk) (i : Nat) : (s.count b i).hostMem = s.hostMem := rfl
@[simp] theorem State.count_bootMem (b : Blk) (i : Nat) : (s.count b i).bootMem = s.bootMem := rfl
@[simp] theorem State.count_bbMem (b : Blk) (i : Nat) : (s.count b i).bbMem = s.bbMem := rfl
@[simp] theorem State.count_hold (b : Blk) (i : Nat) : (s.count b i).hold = s.hold := rfl
@[simp] theorem State.count_nextHold (b : Blk) (i : Nat) : (s.count b i).nextHold = s.nextHold := rfl
@[simp] theorem State.count_holdSeq (b : Blk) (i : Nat) : (s.count b i).holdSeq = s.holdSeq := rfl
@[simp] theorem State.count_holdLog (b : Blk) (i : Nat) : (s.count b i).holdLog = s.holdLog := rfl
@[simp] theorem State.count_windows (b : Blk) (i : Nat) : (s.count b i).windows = s.windows := rfl
@[simp] theorem State.count_level (b : Blk) (i : Nat) : (s.count b i).level = s.level := rfl
@[simp] theorem State.count_hbmStacks (b : Blk) (i : Nat) : (s.count b i).hbmStacks = s.hbmStacks := rfl
@[simp] theorem State.count_hostReads (b : Blk) (i : Nat) : (s.count b i).hostReads = s.hostReads := rfl
@[simp] theorem State.count_stashes (b : Blk) (i : Nat) : (s.count b i).stashes = s.stashes := rfl
@[simp] theorem State.count_scrubPos (b : Blk) (i : Nat) : (s.count b i).scrubPos = s.scrubPos := rfl
@[simp] theorem State.count_scrubFrom (b : Blk) (i : Nat) : (s.count b i).scrubFrom = s.scrubFrom := rfl
@[simp] theorem State.count_nodes (b : Blk) (i : Nat) : (s.count b i).nodes = s.nodes := rfl
@[simp] theorem State.count_castMsgs (b : Blk) (i : Nat) : (s.count b i).castMsgs = s.castMsgs := rfl
@[simp] theorem State.count_castSt (b : Blk) (i : Nat) : (s.count b i).castSt = s.castSt := rfl
@[simp] theorem State.count_castDeferred (b : Blk) (i : Nat) : (s.count b i).castDeferred = s.castDeferred := rfl
@[simp] theorem State.count_jobLive (b : Blk) (i : Nat) : (s.count b i).jobLive = s.jobLive := rfl
@[simp] theorem State.count_castRelease (b : Blk) (i : Nat) : (s.count b i).castRelease = s.castRelease := rfl
@[simp] theorem State.count_bind (b : Blk) (i : Nat) : (s.count b i).bind = s.bind := rfl
@[simp] theorem State.count_links (b : Blk) (i : Nat) : (s.count b i).links = s.links := rfl
@[simp] theorem State.count_niBufs (b : Blk) (i : Nat) : (s.count b i).niBufs = s.niBufs := rfl
@[simp] theorem State.count_rankTables (b : Blk) (i : Nat) : (s.count b i).rankTables = s.rankTables := rfl
@[simp] theorem State.count_niOwn (b : Blk) (i : Nat) : (s.count b i).niOwn = s.niOwn := rfl
@[simp] theorem State.count_srv (b : Blk) (i : Nat) : (s.count b i).srv = s.srv := rfl
@[simp] theorem State.count_fns (b : Blk) (i : Nat) : (s.count b i).fns = s.fns := rfl
@[simp] theorem State.count_hostWaits (b : Blk) (i : Nat) : (s.count b i).hostWaits = s.hostWaits := rfl
@[simp] theorem State.count_rowSets (b : Blk) (i : Nat) : (s.count b i).rowSets = s.rowSets := rfl
@[simp] theorem State.count_rowOps (b : Blk) (i : Nat) : (s.count b i).rowOps = s.rowOps := rfl
@[simp] theorem State.count_crossings (b : Blk) (i : Nat) : (s.count b i).crossings = s.crossings := rfl
@[simp] theorem State.count_d2dBuf (b : Blk) (i : Nat) : (s.count b i).d2dBuf = s.d2dBuf := rfl
@[simp] theorem State.count_landed (b : Blk) (i : Nat) : (s.count b i).landed = s.landed := rfl
@[simp] theorem State.count_setNow (b : Blk) (i : Nat) : (s.count b i).setNow = s.setNow := rfl
@[simp] theorem State.count_incNow (b : Blk) (i : Nat) : (s.count b i).incNow = s.incNow := rfl
@[simp] theorem State.count_numWas (b : Blk) (i : Nat) : (s.count b i).numWas = s.numWas := rfl
@[simp] theorem State.count_skErr (b : Blk) (i : Nat) : (s.count b i).skErr = s.skErr := rfl
@[simp] theorem State.count_hostGrants (b : Blk) (i : Nat) : (s.count b i).hostGrants = s.hostGrants := rfl
@[simp] theorem State.count_icus (b : Blk) (i : Nat) : (s.count b i).icus = s.icus := rfl
@[simp] theorem State.count_doms (b : Blk) (i : Nat) : (s.count b i).doms = s.doms := rfl
@[simp] theorem State.count_thms (b : Blk) (i : Nat) : (s.count b i).thms = s.thms := rfl
@[simp] theorem State.count_d2ds (b : Blk) (i : Nat) : (s.count b i).d2ds = s.d2ds := rfl
@[simp] theorem State.count_boot (b : Blk) (i : Nat) : (s.count b i).boot = s.boot := rfl
@[simp] theorem State.count_flt (b : Blk) (i : Nat) : (s.count b i).flt = s.flt := rfl
@[simp] theorem State.count_evrs (b : Blk) (i : Nat) : (s.count b i).evrs = s.evrs := rfl
@[simp] theorem State.count_harts (b : Blk) (i : Nat) : (s.count b i).harts = s.harts := rfl
@[simp] theorem State.count_ccKick (b : Blk) (i : Nat) : (s.count b i).ccKick = s.ccKick := rfl
@[simp] theorem State.count_mgmt (b : Blk) (i : Nat) : (s.count b i).mgmt = s.mgmt := rfl
@[simp] theorem State.count_sent (b : Blk) (i : Nat) : (s.count b i).sent = s.sent := rfl
@[simp] theorem State.count_reply (b : Blk) (i : Nat) : (s.count b i).reply = s.reply := rfl

/-! ## `setCore`: it changes `cores` alone -/

@[simp] theorem State.setCore_pending (k : Nat) (x : Core) : (s.setCore k x).pending = s.pending := rfl
@[simp] theorem State.setCore_fuses (k : Nat) (x : Core) : (s.setCore k x).fuses = s.fuses := rfl
@[simp] theorem State.setCore_wall (k : Nat) (x : Core) : (s.setCore k x).wall = s.wall := rfl
@[simp] theorem State.setCore_ptc (k : Nat) (x : Core) : (s.setCore k x).ptc = s.ptc := rfl
@[simp] theorem State.setCore_time (k : Nat) (x : Core) : (s.setCore k x).time = s.time := rfl
@[simp] theorem State.setCore_clk (k : Nat) (x : Core) : (s.setCore k x).clk = s.clk := rfl
@[simp] theorem State.setCore_pins (k : Nat) (x : Core) : (s.setCore k x).pins = s.pins := rfl
@[simp] theorem State.setCore_regs (k : Nat) (x : Core) : (s.setCore k x).regs = s.regs := rfl
@[simp] theorem State.setCore_cnt (k : Nat) (x : Core) : (s.setCore k x).cnt = s.cnt := rfl
@[simp] theorem State.setCore_faultAt (k : Nat) (x : Core) : (s.setCore k x).faultAt = s.faultAt := rfl
@[simp] theorem State.setCore_shared (k : Nat) (x : Core) : (s.setCore k x).shared = s.shared := rfl
@[simp] theorem State.setCore_skein (k : Nat) (x : Core) : (s.setCore k x).skein = s.skein := rfl
@[simp] theorem State.setCore_hbm (k : Nat) (x : Core) : (s.setCore k x).hbm = s.hbm := rfl
@[simp] theorem State.setCore_stashMem (k : Nat) (x : Core) : (s.setCore k x).stashMem = s.stashMem := rfl
@[simp] theorem State.setCore_sram (k : Nat) (x : Core) : (s.setCore k x).sram = s.sram := rfl
@[simp] theorem State.setCore_hostMem (k : Nat) (x : Core) : (s.setCore k x).hostMem = s.hostMem := rfl
@[simp] theorem State.setCore_bootMem (k : Nat) (x : Core) : (s.setCore k x).bootMem = s.bootMem := rfl
@[simp] theorem State.setCore_bbMem (k : Nat) (x : Core) : (s.setCore k x).bbMem = s.bbMem := rfl
@[simp] theorem State.setCore_hold (k : Nat) (x : Core) : (s.setCore k x).hold = s.hold := rfl
@[simp] theorem State.setCore_nextHold (k : Nat) (x : Core) : (s.setCore k x).nextHold = s.nextHold := rfl
@[simp] theorem State.setCore_holdSeq (k : Nat) (x : Core) : (s.setCore k x).holdSeq = s.holdSeq := rfl
@[simp] theorem State.setCore_holdLog (k : Nat) (x : Core) : (s.setCore k x).holdLog = s.holdLog := rfl
@[simp] theorem State.setCore_windows (k : Nat) (x : Core) : (s.setCore k x).windows = s.windows := rfl
@[simp] theorem State.setCore_level (k : Nat) (x : Core) : (s.setCore k x).level = s.level := rfl
@[simp] theorem State.setCore_hbmStacks (k : Nat) (x : Core) : (s.setCore k x).hbmStacks = s.hbmStacks := rfl
@[simp] theorem State.setCore_hostReads (k : Nat) (x : Core) : (s.setCore k x).hostReads = s.hostReads := rfl
@[simp] theorem State.setCore_stashes (k : Nat) (x : Core) : (s.setCore k x).stashes = s.stashes := rfl
@[simp] theorem State.setCore_scrubPos (k : Nat) (x : Core) : (s.setCore k x).scrubPos = s.scrubPos := rfl
@[simp] theorem State.setCore_scrubFrom (k : Nat) (x : Core) : (s.setCore k x).scrubFrom = s.scrubFrom := rfl
@[simp] theorem State.setCore_nodes (k : Nat) (x : Core) : (s.setCore k x).nodes = s.nodes := rfl
@[simp] theorem State.setCore_castMsgs (k : Nat) (x : Core) : (s.setCore k x).castMsgs = s.castMsgs := rfl
@[simp] theorem State.setCore_castSt (k : Nat) (x : Core) : (s.setCore k x).castSt = s.castSt := rfl
@[simp] theorem State.setCore_castDeferred (k : Nat) (x : Core) : (s.setCore k x).castDeferred = s.castDeferred := rfl
@[simp] theorem State.setCore_jobLive (k : Nat) (x : Core) : (s.setCore k x).jobLive = s.jobLive := rfl
@[simp] theorem State.setCore_castRelease (k : Nat) (x : Core) : (s.setCore k x).castRelease = s.castRelease := rfl
@[simp] theorem State.setCore_bind (k : Nat) (x : Core) : (s.setCore k x).bind = s.bind := rfl
@[simp] theorem State.setCore_links (k : Nat) (x : Core) : (s.setCore k x).links = s.links := rfl
@[simp] theorem State.setCore_niBufs (k : Nat) (x : Core) : (s.setCore k x).niBufs = s.niBufs := rfl
@[simp] theorem State.setCore_rankTables (k : Nat) (x : Core) : (s.setCore k x).rankTables = s.rankTables := rfl
@[simp] theorem State.setCore_niOwn (k : Nat) (x : Core) : (s.setCore k x).niOwn = s.niOwn := rfl
@[simp] theorem State.setCore_srv (k : Nat) (x : Core) : (s.setCore k x).srv = s.srv := rfl
@[simp] theorem State.setCore_fns (k : Nat) (x : Core) : (s.setCore k x).fns = s.fns := rfl
@[simp] theorem State.setCore_hostWaits (k : Nat) (x : Core) : (s.setCore k x).hostWaits = s.hostWaits := rfl
@[simp] theorem State.setCore_rowSets (k : Nat) (x : Core) : (s.setCore k x).rowSets = s.rowSets := rfl
@[simp] theorem State.setCore_rowOps (k : Nat) (x : Core) : (s.setCore k x).rowOps = s.rowOps := rfl
@[simp] theorem State.setCore_crossings (k : Nat) (x : Core) : (s.setCore k x).crossings = s.crossings := rfl
@[simp] theorem State.setCore_d2dBuf (k : Nat) (x : Core) : (s.setCore k x).d2dBuf = s.d2dBuf := rfl
@[simp] theorem State.setCore_landed (k : Nat) (x : Core) : (s.setCore k x).landed = s.landed := rfl
@[simp] theorem State.setCore_setNow (k : Nat) (x : Core) : (s.setCore k x).setNow = s.setNow := rfl
@[simp] theorem State.setCore_incNow (k : Nat) (x : Core) : (s.setCore k x).incNow = s.incNow := rfl
@[simp] theorem State.setCore_numWas (k : Nat) (x : Core) : (s.setCore k x).numWas = s.numWas := rfl
@[simp] theorem State.setCore_skErr (k : Nat) (x : Core) : (s.setCore k x).skErr = s.skErr := rfl
@[simp] theorem State.setCore_hostGrants (k : Nat) (x : Core) : (s.setCore k x).hostGrants = s.hostGrants := rfl
@[simp] theorem State.setCore_icus (k : Nat) (x : Core) : (s.setCore k x).icus = s.icus := rfl
@[simp] theorem State.setCore_doms (k : Nat) (x : Core) : (s.setCore k x).doms = s.doms := rfl
@[simp] theorem State.setCore_thms (k : Nat) (x : Core) : (s.setCore k x).thms = s.thms := rfl
@[simp] theorem State.setCore_d2ds (k : Nat) (x : Core) : (s.setCore k x).d2ds = s.d2ds := rfl
@[simp] theorem State.setCore_boot (k : Nat) (x : Core) : (s.setCore k x).boot = s.boot := rfl
@[simp] theorem State.setCore_flt (k : Nat) (x : Core) : (s.setCore k x).flt = s.flt := rfl
@[simp] theorem State.setCore_evrs (k : Nat) (x : Core) : (s.setCore k x).evrs = s.evrs := rfl
@[simp] theorem State.setCore_harts (k : Nat) (x : Core) : (s.setCore k x).harts = s.harts := rfl
@[simp] theorem State.setCore_ccKick (k : Nat) (x : Core) : (s.setCore k x).ccKick = s.ccKick := rfl
@[simp] theorem State.setCore_mgmt (k : Nat) (x : Core) : (s.setCore k x).mgmt = s.mgmt := rfl
@[simp] theorem State.setCore_sent (k : Nat) (x : Core) : (s.setCore k x).sent = s.sent := rfl
@[simp] theorem State.setCore_reply (k : Nat) (x : Core) : (s.setCore k x).reply = s.reply := rfl

/-! ## `setDom`: it changes `doms` alone -/

@[simp] theorem State.setDom_pending (p i : Nat) (x : Dom) : (s.setDom p i x).pending = s.pending := rfl
@[simp] theorem State.setDom_fuses (p i : Nat) (x : Dom) : (s.setDom p i x).fuses = s.fuses := rfl
@[simp] theorem State.setDom_wall (p i : Nat) (x : Dom) : (s.setDom p i x).wall = s.wall := rfl
@[simp] theorem State.setDom_ptc (p i : Nat) (x : Dom) : (s.setDom p i x).ptc = s.ptc := rfl
@[simp] theorem State.setDom_time (p i : Nat) (x : Dom) : (s.setDom p i x).time = s.time := rfl
@[simp] theorem State.setDom_clk (p i : Nat) (x : Dom) : (s.setDom p i x).clk = s.clk := rfl
@[simp] theorem State.setDom_pins (p i : Nat) (x : Dom) : (s.setDom p i x).pins = s.pins := rfl
@[simp] theorem State.setDom_regs (p i : Nat) (x : Dom) : (s.setDom p i x).regs = s.regs := rfl
@[simp] theorem State.setDom_cnt (p i : Nat) (x : Dom) : (s.setDom p i x).cnt = s.cnt := rfl
@[simp] theorem State.setDom_faultAt (p i : Nat) (x : Dom) : (s.setDom p i x).faultAt = s.faultAt := rfl
@[simp] theorem State.setDom_cores (p i : Nat) (x : Dom) : (s.setDom p i x).cores = s.cores := rfl
@[simp] theorem State.setDom_shared (p i : Nat) (x : Dom) : (s.setDom p i x).shared = s.shared := rfl
@[simp] theorem State.setDom_skein (p i : Nat) (x : Dom) : (s.setDom p i x).skein = s.skein := rfl
@[simp] theorem State.setDom_hbm (p i : Nat) (x : Dom) : (s.setDom p i x).hbm = s.hbm := rfl
@[simp] theorem State.setDom_stashMem (p i : Nat) (x : Dom) : (s.setDom p i x).stashMem = s.stashMem := rfl
@[simp] theorem State.setDom_sram (p i : Nat) (x : Dom) : (s.setDom p i x).sram = s.sram := rfl
@[simp] theorem State.setDom_hostMem (p i : Nat) (x : Dom) : (s.setDom p i x).hostMem = s.hostMem := rfl
@[simp] theorem State.setDom_bootMem (p i : Nat) (x : Dom) : (s.setDom p i x).bootMem = s.bootMem := rfl
@[simp] theorem State.setDom_bbMem (p i : Nat) (x : Dom) : (s.setDom p i x).bbMem = s.bbMem := rfl
@[simp] theorem State.setDom_hold (p i : Nat) (x : Dom) : (s.setDom p i x).hold = s.hold := rfl
@[simp] theorem State.setDom_nextHold (p i : Nat) (x : Dom) : (s.setDom p i x).nextHold = s.nextHold := rfl
@[simp] theorem State.setDom_holdSeq (p i : Nat) (x : Dom) : (s.setDom p i x).holdSeq = s.holdSeq := rfl
@[simp] theorem State.setDom_holdLog (p i : Nat) (x : Dom) : (s.setDom p i x).holdLog = s.holdLog := rfl
@[simp] theorem State.setDom_windows (p i : Nat) (x : Dom) : (s.setDom p i x).windows = s.windows := rfl
@[simp] theorem State.setDom_level (p i : Nat) (x : Dom) : (s.setDom p i x).level = s.level := rfl
@[simp] theorem State.setDom_hbmStacks (p i : Nat) (x : Dom) : (s.setDom p i x).hbmStacks = s.hbmStacks := rfl
@[simp] theorem State.setDom_hostReads (p i : Nat) (x : Dom) : (s.setDom p i x).hostReads = s.hostReads := rfl
@[simp] theorem State.setDom_stashes (p i : Nat) (x : Dom) : (s.setDom p i x).stashes = s.stashes := rfl
@[simp] theorem State.setDom_scrubPos (p i : Nat) (x : Dom) : (s.setDom p i x).scrubPos = s.scrubPos := rfl
@[simp] theorem State.setDom_scrubFrom (p i : Nat) (x : Dom) : (s.setDom p i x).scrubFrom = s.scrubFrom := rfl
@[simp] theorem State.setDom_nodes (p i : Nat) (x : Dom) : (s.setDom p i x).nodes = s.nodes := rfl
@[simp] theorem State.setDom_castMsgs (p i : Nat) (x : Dom) : (s.setDom p i x).castMsgs = s.castMsgs := rfl
@[simp] theorem State.setDom_castSt (p i : Nat) (x : Dom) : (s.setDom p i x).castSt = s.castSt := rfl
@[simp] theorem State.setDom_castDeferred (p i : Nat) (x : Dom) : (s.setDom p i x).castDeferred = s.castDeferred := rfl
@[simp] theorem State.setDom_jobLive (p i : Nat) (x : Dom) : (s.setDom p i x).jobLive = s.jobLive := rfl
@[simp] theorem State.setDom_castRelease (p i : Nat) (x : Dom) : (s.setDom p i x).castRelease = s.castRelease := rfl
@[simp] theorem State.setDom_bind (p i : Nat) (x : Dom) : (s.setDom p i x).bind = s.bind := rfl
@[simp] theorem State.setDom_links (p i : Nat) (x : Dom) : (s.setDom p i x).links = s.links := rfl
@[simp] theorem State.setDom_niBufs (p i : Nat) (x : Dom) : (s.setDom p i x).niBufs = s.niBufs := rfl
@[simp] theorem State.setDom_rankTables (p i : Nat) (x : Dom) : (s.setDom p i x).rankTables = s.rankTables := rfl
@[simp] theorem State.setDom_niOwn (p i : Nat) (x : Dom) : (s.setDom p i x).niOwn = s.niOwn := rfl
@[simp] theorem State.setDom_srv (p i : Nat) (x : Dom) : (s.setDom p i x).srv = s.srv := rfl
@[simp] theorem State.setDom_fns (p i : Nat) (x : Dom) : (s.setDom p i x).fns = s.fns := rfl
@[simp] theorem State.setDom_hostWaits (p i : Nat) (x : Dom) : (s.setDom p i x).hostWaits = s.hostWaits := rfl
@[simp] theorem State.setDom_rowSets (p i : Nat) (x : Dom) : (s.setDom p i x).rowSets = s.rowSets := rfl
@[simp] theorem State.setDom_rowOps (p i : Nat) (x : Dom) : (s.setDom p i x).rowOps = s.rowOps := rfl
@[simp] theorem State.setDom_crossings (p i : Nat) (x : Dom) : (s.setDom p i x).crossings = s.crossings := rfl
@[simp] theorem State.setDom_d2dBuf (p i : Nat) (x : Dom) : (s.setDom p i x).d2dBuf = s.d2dBuf := rfl
@[simp] theorem State.setDom_landed (p i : Nat) (x : Dom) : (s.setDom p i x).landed = s.landed := rfl
@[simp] theorem State.setDom_setNow (p i : Nat) (x : Dom) : (s.setDom p i x).setNow = s.setNow := rfl
@[simp] theorem State.setDom_incNow (p i : Nat) (x : Dom) : (s.setDom p i x).incNow = s.incNow := rfl
@[simp] theorem State.setDom_numWas (p i : Nat) (x : Dom) : (s.setDom p i x).numWas = s.numWas := rfl
@[simp] theorem State.setDom_skErr (p i : Nat) (x : Dom) : (s.setDom p i x).skErr = s.skErr := rfl
@[simp] theorem State.setDom_hostGrants (p i : Nat) (x : Dom) : (s.setDom p i x).hostGrants = s.hostGrants := rfl
@[simp] theorem State.setDom_icus (p i : Nat) (x : Dom) : (s.setDom p i x).icus = s.icus := rfl
@[simp] theorem State.setDom_thms (p i : Nat) (x : Dom) : (s.setDom p i x).thms = s.thms := rfl
@[simp] theorem State.setDom_d2ds (p i : Nat) (x : Dom) : (s.setDom p i x).d2ds = s.d2ds := rfl
@[simp] theorem State.setDom_boot (p i : Nat) (x : Dom) : (s.setDom p i x).boot = s.boot := rfl
@[simp] theorem State.setDom_flt (p i : Nat) (x : Dom) : (s.setDom p i x).flt = s.flt := rfl
@[simp] theorem State.setDom_evrs (p i : Nat) (x : Dom) : (s.setDom p i x).evrs = s.evrs := rfl
@[simp] theorem State.setDom_harts (p i : Nat) (x : Dom) : (s.setDom p i x).harts = s.harts := rfl
@[simp] theorem State.setDom_ccKick (p i : Nat) (x : Dom) : (s.setDom p i x).ccKick = s.ccKick := rfl
@[simp] theorem State.setDom_mgmt (p i : Nat) (x : Dom) : (s.setDom p i x).mgmt = s.mgmt := rfl
@[simp] theorem State.setDom_sent (p i : Nat) (x : Dom) : (s.setDom p i x).sent = s.sent := rfl
@[simp] theorem State.setDom_reply (p i : Nat) (x : Dom) : (s.setDom p i x).reply = s.reply := rfl

/-! ## `setHbmStack`: it changes `hbmStacks` alone -/

@[simp] theorem State.setHbmStack_pending (p n : Nat) (x : HbmStack) : (s.setHbmStack p n x).pending = s.pending := rfl
@[simp] theorem State.setHbmStack_fuses (p n : Nat) (x : HbmStack) : (s.setHbmStack p n x).fuses = s.fuses := rfl
@[simp] theorem State.setHbmStack_wall (p n : Nat) (x : HbmStack) : (s.setHbmStack p n x).wall = s.wall := rfl
@[simp] theorem State.setHbmStack_ptc (p n : Nat) (x : HbmStack) : (s.setHbmStack p n x).ptc = s.ptc := rfl
@[simp] theorem State.setHbmStack_time (p n : Nat) (x : HbmStack) : (s.setHbmStack p n x).time = s.time := rfl
@[simp] theorem State.setHbmStack_clk (p n : Nat) (x : HbmStack) : (s.setHbmStack p n x).clk = s.clk := rfl
@[simp] theorem State.setHbmStack_pins (p n : Nat) (x : HbmStack) : (s.setHbmStack p n x).pins = s.pins := rfl
@[simp] theorem State.setHbmStack_regs (p n : Nat) (x : HbmStack) : (s.setHbmStack p n x).regs = s.regs := rfl
@[simp] theorem State.setHbmStack_cnt (p n : Nat) (x : HbmStack) : (s.setHbmStack p n x).cnt = s.cnt := rfl
@[simp] theorem State.setHbmStack_faultAt (p n : Nat) (x : HbmStack) : (s.setHbmStack p n x).faultAt = s.faultAt := rfl
@[simp] theorem State.setHbmStack_cores (p n : Nat) (x : HbmStack) : (s.setHbmStack p n x).cores = s.cores := rfl
@[simp] theorem State.setHbmStack_shared (p n : Nat) (x : HbmStack) : (s.setHbmStack p n x).shared = s.shared := rfl
@[simp] theorem State.setHbmStack_skein (p n : Nat) (x : HbmStack) : (s.setHbmStack p n x).skein = s.skein := rfl
@[simp] theorem State.setHbmStack_hbm (p n : Nat) (x : HbmStack) : (s.setHbmStack p n x).hbm = s.hbm := rfl
@[simp] theorem State.setHbmStack_stashMem (p n : Nat) (x : HbmStack) : (s.setHbmStack p n x).stashMem = s.stashMem := rfl
@[simp] theorem State.setHbmStack_sram (p n : Nat) (x : HbmStack) : (s.setHbmStack p n x).sram = s.sram := rfl
@[simp] theorem State.setHbmStack_hostMem (p n : Nat) (x : HbmStack) : (s.setHbmStack p n x).hostMem = s.hostMem := rfl
@[simp] theorem State.setHbmStack_bootMem (p n : Nat) (x : HbmStack) : (s.setHbmStack p n x).bootMem = s.bootMem := rfl
@[simp] theorem State.setHbmStack_bbMem (p n : Nat) (x : HbmStack) : (s.setHbmStack p n x).bbMem = s.bbMem := rfl
@[simp] theorem State.setHbmStack_hold (p n : Nat) (x : HbmStack) : (s.setHbmStack p n x).hold = s.hold := rfl
@[simp] theorem State.setHbmStack_nextHold (p n : Nat) (x : HbmStack) : (s.setHbmStack p n x).nextHold = s.nextHold := rfl
@[simp] theorem State.setHbmStack_holdSeq (p n : Nat) (x : HbmStack) : (s.setHbmStack p n x).holdSeq = s.holdSeq := rfl
@[simp] theorem State.setHbmStack_holdLog (p n : Nat) (x : HbmStack) : (s.setHbmStack p n x).holdLog = s.holdLog := rfl
@[simp] theorem State.setHbmStack_windows (p n : Nat) (x : HbmStack) : (s.setHbmStack p n x).windows = s.windows := rfl
@[simp] theorem State.setHbmStack_level (p n : Nat) (x : HbmStack) : (s.setHbmStack p n x).level = s.level := rfl
@[simp] theorem State.setHbmStack_hostReads (p n : Nat) (x : HbmStack) : (s.setHbmStack p n x).hostReads = s.hostReads := rfl
@[simp] theorem State.setHbmStack_stashes (p n : Nat) (x : HbmStack) : (s.setHbmStack p n x).stashes = s.stashes := rfl
@[simp] theorem State.setHbmStack_scrubPos (p n : Nat) (x : HbmStack) : (s.setHbmStack p n x).scrubPos = s.scrubPos := rfl
@[simp] theorem State.setHbmStack_scrubFrom (p n : Nat) (x : HbmStack) : (s.setHbmStack p n x).scrubFrom = s.scrubFrom := rfl
@[simp] theorem State.setHbmStack_nodes (p n : Nat) (x : HbmStack) : (s.setHbmStack p n x).nodes = s.nodes := rfl
@[simp] theorem State.setHbmStack_castMsgs (p n : Nat) (x : HbmStack) : (s.setHbmStack p n x).castMsgs = s.castMsgs := rfl
@[simp] theorem State.setHbmStack_castSt (p n : Nat) (x : HbmStack) : (s.setHbmStack p n x).castSt = s.castSt := rfl
@[simp] theorem State.setHbmStack_castDeferred (p n : Nat) (x : HbmStack) : (s.setHbmStack p n x).castDeferred = s.castDeferred := rfl
@[simp] theorem State.setHbmStack_jobLive (p n : Nat) (x : HbmStack) : (s.setHbmStack p n x).jobLive = s.jobLive := rfl
@[simp] theorem State.setHbmStack_castRelease (p n : Nat) (x : HbmStack) : (s.setHbmStack p n x).castRelease = s.castRelease := rfl
@[simp] theorem State.setHbmStack_bind (p n : Nat) (x : HbmStack) : (s.setHbmStack p n x).bind = s.bind := rfl
@[simp] theorem State.setHbmStack_links (p n : Nat) (x : HbmStack) : (s.setHbmStack p n x).links = s.links := rfl
@[simp] theorem State.setHbmStack_niBufs (p n : Nat) (x : HbmStack) : (s.setHbmStack p n x).niBufs = s.niBufs := rfl
@[simp] theorem State.setHbmStack_rankTables (p n : Nat) (x : HbmStack) : (s.setHbmStack p n x).rankTables = s.rankTables := rfl
@[simp] theorem State.setHbmStack_niOwn (p n : Nat) (x : HbmStack) : (s.setHbmStack p n x).niOwn = s.niOwn := rfl
@[simp] theorem State.setHbmStack_srv (p n : Nat) (x : HbmStack) : (s.setHbmStack p n x).srv = s.srv := rfl
@[simp] theorem State.setHbmStack_fns (p n : Nat) (x : HbmStack) : (s.setHbmStack p n x).fns = s.fns := rfl
@[simp] theorem State.setHbmStack_hostWaits (p n : Nat) (x : HbmStack) : (s.setHbmStack p n x).hostWaits = s.hostWaits := rfl
@[simp] theorem State.setHbmStack_rowSets (p n : Nat) (x : HbmStack) : (s.setHbmStack p n x).rowSets = s.rowSets := rfl
@[simp] theorem State.setHbmStack_rowOps (p n : Nat) (x : HbmStack) : (s.setHbmStack p n x).rowOps = s.rowOps := rfl
@[simp] theorem State.setHbmStack_crossings (p n : Nat) (x : HbmStack) : (s.setHbmStack p n x).crossings = s.crossings := rfl
@[simp] theorem State.setHbmStack_d2dBuf (p n : Nat) (x : HbmStack) : (s.setHbmStack p n x).d2dBuf = s.d2dBuf := rfl
@[simp] theorem State.setHbmStack_landed (p n : Nat) (x : HbmStack) : (s.setHbmStack p n x).landed = s.landed := rfl
@[simp] theorem State.setHbmStack_setNow (p n : Nat) (x : HbmStack) : (s.setHbmStack p n x).setNow = s.setNow := rfl
@[simp] theorem State.setHbmStack_incNow (p n : Nat) (x : HbmStack) : (s.setHbmStack p n x).incNow = s.incNow := rfl
@[simp] theorem State.setHbmStack_numWas (p n : Nat) (x : HbmStack) : (s.setHbmStack p n x).numWas = s.numWas := rfl
@[simp] theorem State.setHbmStack_skErr (p n : Nat) (x : HbmStack) : (s.setHbmStack p n x).skErr = s.skErr := rfl
@[simp] theorem State.setHbmStack_hostGrants (p n : Nat) (x : HbmStack) : (s.setHbmStack p n x).hostGrants = s.hostGrants := rfl
@[simp] theorem State.setHbmStack_icus (p n : Nat) (x : HbmStack) : (s.setHbmStack p n x).icus = s.icus := rfl
@[simp] theorem State.setHbmStack_doms (p n : Nat) (x : HbmStack) : (s.setHbmStack p n x).doms = s.doms := rfl
@[simp] theorem State.setHbmStack_thms (p n : Nat) (x : HbmStack) : (s.setHbmStack p n x).thms = s.thms := rfl
@[simp] theorem State.setHbmStack_d2ds (p n : Nat) (x : HbmStack) : (s.setHbmStack p n x).d2ds = s.d2ds := rfl
@[simp] theorem State.setHbmStack_boot (p n : Nat) (x : HbmStack) : (s.setHbmStack p n x).boot = s.boot := rfl
@[simp] theorem State.setHbmStack_flt (p n : Nat) (x : HbmStack) : (s.setHbmStack p n x).flt = s.flt := rfl
@[simp] theorem State.setHbmStack_evrs (p n : Nat) (x : HbmStack) : (s.setHbmStack p n x).evrs = s.evrs := rfl
@[simp] theorem State.setHbmStack_harts (p n : Nat) (x : HbmStack) : (s.setHbmStack p n x).harts = s.harts := rfl
@[simp] theorem State.setHbmStack_ccKick (p n : Nat) (x : HbmStack) : (s.setHbmStack p n x).ccKick = s.ccKick := rfl
@[simp] theorem State.setHbmStack_mgmt (p n : Nat) (x : HbmStack) : (s.setHbmStack p n x).mgmt = s.mgmt := rfl
@[simp] theorem State.setHbmStack_sent (p n : Nat) (x : HbmStack) : (s.setHbmStack p n x).sent = s.sent := rfl
@[simp] theorem State.setHbmStack_reply (p n : Nat) (x : HbmStack) : (s.setHbmStack p n x).reply = s.reply := rfl

/-! ## `setStash`: it changes `stashes` alone -/

@[simp] theorem State.setStash_pending (p : Nat) (x : Stash) : (s.setStash p x).pending = s.pending := rfl
@[simp] theorem State.setStash_fuses (p : Nat) (x : Stash) : (s.setStash p x).fuses = s.fuses := rfl
@[simp] theorem State.setStash_wall (p : Nat) (x : Stash) : (s.setStash p x).wall = s.wall := rfl
@[simp] theorem State.setStash_ptc (p : Nat) (x : Stash) : (s.setStash p x).ptc = s.ptc := rfl
@[simp] theorem State.setStash_time (p : Nat) (x : Stash) : (s.setStash p x).time = s.time := rfl
@[simp] theorem State.setStash_clk (p : Nat) (x : Stash) : (s.setStash p x).clk = s.clk := rfl
@[simp] theorem State.setStash_pins (p : Nat) (x : Stash) : (s.setStash p x).pins = s.pins := rfl
@[simp] theorem State.setStash_regs (p : Nat) (x : Stash) : (s.setStash p x).regs = s.regs := rfl
@[simp] theorem State.setStash_cnt (p : Nat) (x : Stash) : (s.setStash p x).cnt = s.cnt := rfl
@[simp] theorem State.setStash_faultAt (p : Nat) (x : Stash) : (s.setStash p x).faultAt = s.faultAt := rfl
@[simp] theorem State.setStash_cores (p : Nat) (x : Stash) : (s.setStash p x).cores = s.cores := rfl
@[simp] theorem State.setStash_shared (p : Nat) (x : Stash) : (s.setStash p x).shared = s.shared := rfl
@[simp] theorem State.setStash_skein (p : Nat) (x : Stash) : (s.setStash p x).skein = s.skein := rfl
@[simp] theorem State.setStash_hbm (p : Nat) (x : Stash) : (s.setStash p x).hbm = s.hbm := rfl
@[simp] theorem State.setStash_stashMem (p : Nat) (x : Stash) : (s.setStash p x).stashMem = s.stashMem := rfl
@[simp] theorem State.setStash_sram (p : Nat) (x : Stash) : (s.setStash p x).sram = s.sram := rfl
@[simp] theorem State.setStash_hostMem (p : Nat) (x : Stash) : (s.setStash p x).hostMem = s.hostMem := rfl
@[simp] theorem State.setStash_bootMem (p : Nat) (x : Stash) : (s.setStash p x).bootMem = s.bootMem := rfl
@[simp] theorem State.setStash_bbMem (p : Nat) (x : Stash) : (s.setStash p x).bbMem = s.bbMem := rfl
@[simp] theorem State.setStash_hold (p : Nat) (x : Stash) : (s.setStash p x).hold = s.hold := rfl
@[simp] theorem State.setStash_nextHold (p : Nat) (x : Stash) : (s.setStash p x).nextHold = s.nextHold := rfl
@[simp] theorem State.setStash_holdSeq (p : Nat) (x : Stash) : (s.setStash p x).holdSeq = s.holdSeq := rfl
@[simp] theorem State.setStash_holdLog (p : Nat) (x : Stash) : (s.setStash p x).holdLog = s.holdLog := rfl
@[simp] theorem State.setStash_windows (p : Nat) (x : Stash) : (s.setStash p x).windows = s.windows := rfl
@[simp] theorem State.setStash_level (p : Nat) (x : Stash) : (s.setStash p x).level = s.level := rfl
@[simp] theorem State.setStash_hbmStacks (p : Nat) (x : Stash) : (s.setStash p x).hbmStacks = s.hbmStacks := rfl
@[simp] theorem State.setStash_hostReads (p : Nat) (x : Stash) : (s.setStash p x).hostReads = s.hostReads := rfl
@[simp] theorem State.setStash_scrubPos (p : Nat) (x : Stash) : (s.setStash p x).scrubPos = s.scrubPos := rfl
@[simp] theorem State.setStash_scrubFrom (p : Nat) (x : Stash) : (s.setStash p x).scrubFrom = s.scrubFrom := rfl
@[simp] theorem State.setStash_nodes (p : Nat) (x : Stash) : (s.setStash p x).nodes = s.nodes := rfl
@[simp] theorem State.setStash_castMsgs (p : Nat) (x : Stash) : (s.setStash p x).castMsgs = s.castMsgs := rfl
@[simp] theorem State.setStash_castSt (p : Nat) (x : Stash) : (s.setStash p x).castSt = s.castSt := rfl
@[simp] theorem State.setStash_castDeferred (p : Nat) (x : Stash) : (s.setStash p x).castDeferred = s.castDeferred := rfl
@[simp] theorem State.setStash_jobLive (p : Nat) (x : Stash) : (s.setStash p x).jobLive = s.jobLive := rfl
@[simp] theorem State.setStash_castRelease (p : Nat) (x : Stash) : (s.setStash p x).castRelease = s.castRelease := rfl
@[simp] theorem State.setStash_bind (p : Nat) (x : Stash) : (s.setStash p x).bind = s.bind := rfl
@[simp] theorem State.setStash_links (p : Nat) (x : Stash) : (s.setStash p x).links = s.links := rfl
@[simp] theorem State.setStash_niBufs (p : Nat) (x : Stash) : (s.setStash p x).niBufs = s.niBufs := rfl
@[simp] theorem State.setStash_rankTables (p : Nat) (x : Stash) : (s.setStash p x).rankTables = s.rankTables := rfl
@[simp] theorem State.setStash_niOwn (p : Nat) (x : Stash) : (s.setStash p x).niOwn = s.niOwn := rfl
@[simp] theorem State.setStash_srv (p : Nat) (x : Stash) : (s.setStash p x).srv = s.srv := rfl
@[simp] theorem State.setStash_fns (p : Nat) (x : Stash) : (s.setStash p x).fns = s.fns := rfl
@[simp] theorem State.setStash_hostWaits (p : Nat) (x : Stash) : (s.setStash p x).hostWaits = s.hostWaits := rfl
@[simp] theorem State.setStash_rowSets (p : Nat) (x : Stash) : (s.setStash p x).rowSets = s.rowSets := rfl
@[simp] theorem State.setStash_rowOps (p : Nat) (x : Stash) : (s.setStash p x).rowOps = s.rowOps := rfl
@[simp] theorem State.setStash_crossings (p : Nat) (x : Stash) : (s.setStash p x).crossings = s.crossings := rfl
@[simp] theorem State.setStash_d2dBuf (p : Nat) (x : Stash) : (s.setStash p x).d2dBuf = s.d2dBuf := rfl
@[simp] theorem State.setStash_landed (p : Nat) (x : Stash) : (s.setStash p x).landed = s.landed := rfl
@[simp] theorem State.setStash_setNow (p : Nat) (x : Stash) : (s.setStash p x).setNow = s.setNow := rfl
@[simp] theorem State.setStash_incNow (p : Nat) (x : Stash) : (s.setStash p x).incNow = s.incNow := rfl
@[simp] theorem State.setStash_numWas (p : Nat) (x : Stash) : (s.setStash p x).numWas = s.numWas := rfl
@[simp] theorem State.setStash_skErr (p : Nat) (x : Stash) : (s.setStash p x).skErr = s.skErr := rfl
@[simp] theorem State.setStash_hostGrants (p : Nat) (x : Stash) : (s.setStash p x).hostGrants = s.hostGrants := rfl
@[simp] theorem State.setStash_icus (p : Nat) (x : Stash) : (s.setStash p x).icus = s.icus := rfl
@[simp] theorem State.setStash_doms (p : Nat) (x : Stash) : (s.setStash p x).doms = s.doms := rfl
@[simp] theorem State.setStash_thms (p : Nat) (x : Stash) : (s.setStash p x).thms = s.thms := rfl
@[simp] theorem State.setStash_d2ds (p : Nat) (x : Stash) : (s.setStash p x).d2ds = s.d2ds := rfl
@[simp] theorem State.setStash_boot (p : Nat) (x : Stash) : (s.setStash p x).boot = s.boot := rfl
@[simp] theorem State.setStash_flt (p : Nat) (x : Stash) : (s.setStash p x).flt = s.flt := rfl
@[simp] theorem State.setStash_evrs (p : Nat) (x : Stash) : (s.setStash p x).evrs = s.evrs := rfl
@[simp] theorem State.setStash_harts (p : Nat) (x : Stash) : (s.setStash p x).harts = s.harts := rfl
@[simp] theorem State.setStash_ccKick (p : Nat) (x : Stash) : (s.setStash p x).ccKick = s.ccKick := rfl
@[simp] theorem State.setStash_mgmt (p : Nat) (x : Stash) : (s.setStash p x).mgmt = s.mgmt := rfl
@[simp] theorem State.setStash_sent (p : Nat) (x : Stash) : (s.setStash p x).sent = s.sent := rfl
@[simp] theorem State.setStash_reply (p : Nat) (x : Stash) : (s.setStash p x).reply = s.reply := rfl

/-! ## `setLink`: it changes `links` alone -/

@[simp] theorem State.setLink_pending (l : Nat) (x : Link) : (s.setLink l x).pending = s.pending := rfl
@[simp] theorem State.setLink_fuses (l : Nat) (x : Link) : (s.setLink l x).fuses = s.fuses := rfl
@[simp] theorem State.setLink_wall (l : Nat) (x : Link) : (s.setLink l x).wall = s.wall := rfl
@[simp] theorem State.setLink_ptc (l : Nat) (x : Link) : (s.setLink l x).ptc = s.ptc := rfl
@[simp] theorem State.setLink_time (l : Nat) (x : Link) : (s.setLink l x).time = s.time := rfl
@[simp] theorem State.setLink_clk (l : Nat) (x : Link) : (s.setLink l x).clk = s.clk := rfl
@[simp] theorem State.setLink_pins (l : Nat) (x : Link) : (s.setLink l x).pins = s.pins := rfl
@[simp] theorem State.setLink_regs (l : Nat) (x : Link) : (s.setLink l x).regs = s.regs := rfl
@[simp] theorem State.setLink_cnt (l : Nat) (x : Link) : (s.setLink l x).cnt = s.cnt := rfl
@[simp] theorem State.setLink_faultAt (l : Nat) (x : Link) : (s.setLink l x).faultAt = s.faultAt := rfl
@[simp] theorem State.setLink_cores (l : Nat) (x : Link) : (s.setLink l x).cores = s.cores := rfl
@[simp] theorem State.setLink_shared (l : Nat) (x : Link) : (s.setLink l x).shared = s.shared := rfl
@[simp] theorem State.setLink_skein (l : Nat) (x : Link) : (s.setLink l x).skein = s.skein := rfl
@[simp] theorem State.setLink_hbm (l : Nat) (x : Link) : (s.setLink l x).hbm = s.hbm := rfl
@[simp] theorem State.setLink_stashMem (l : Nat) (x : Link) : (s.setLink l x).stashMem = s.stashMem := rfl
@[simp] theorem State.setLink_sram (l : Nat) (x : Link) : (s.setLink l x).sram = s.sram := rfl
@[simp] theorem State.setLink_hostMem (l : Nat) (x : Link) : (s.setLink l x).hostMem = s.hostMem := rfl
@[simp] theorem State.setLink_bootMem (l : Nat) (x : Link) : (s.setLink l x).bootMem = s.bootMem := rfl
@[simp] theorem State.setLink_bbMem (l : Nat) (x : Link) : (s.setLink l x).bbMem = s.bbMem := rfl
@[simp] theorem State.setLink_hold (l : Nat) (x : Link) : (s.setLink l x).hold = s.hold := rfl
@[simp] theorem State.setLink_nextHold (l : Nat) (x : Link) : (s.setLink l x).nextHold = s.nextHold := rfl
@[simp] theorem State.setLink_holdSeq (l : Nat) (x : Link) : (s.setLink l x).holdSeq = s.holdSeq := rfl
@[simp] theorem State.setLink_holdLog (l : Nat) (x : Link) : (s.setLink l x).holdLog = s.holdLog := rfl
@[simp] theorem State.setLink_windows (l : Nat) (x : Link) : (s.setLink l x).windows = s.windows := rfl
@[simp] theorem State.setLink_level (l : Nat) (x : Link) : (s.setLink l x).level = s.level := rfl
@[simp] theorem State.setLink_hbmStacks (l : Nat) (x : Link) : (s.setLink l x).hbmStacks = s.hbmStacks := rfl
@[simp] theorem State.setLink_hostReads (l : Nat) (x : Link) : (s.setLink l x).hostReads = s.hostReads := rfl
@[simp] theorem State.setLink_stashes (l : Nat) (x : Link) : (s.setLink l x).stashes = s.stashes := rfl
@[simp] theorem State.setLink_scrubPos (l : Nat) (x : Link) : (s.setLink l x).scrubPos = s.scrubPos := rfl
@[simp] theorem State.setLink_scrubFrom (l : Nat) (x : Link) : (s.setLink l x).scrubFrom = s.scrubFrom := rfl
@[simp] theorem State.setLink_nodes (l : Nat) (x : Link) : (s.setLink l x).nodes = s.nodes := rfl
@[simp] theorem State.setLink_castMsgs (l : Nat) (x : Link) : (s.setLink l x).castMsgs = s.castMsgs := rfl
@[simp] theorem State.setLink_castSt (l : Nat) (x : Link) : (s.setLink l x).castSt = s.castSt := rfl
@[simp] theorem State.setLink_castDeferred (l : Nat) (x : Link) : (s.setLink l x).castDeferred = s.castDeferred := rfl
@[simp] theorem State.setLink_jobLive (l : Nat) (x : Link) : (s.setLink l x).jobLive = s.jobLive := rfl
@[simp] theorem State.setLink_castRelease (l : Nat) (x : Link) : (s.setLink l x).castRelease = s.castRelease := rfl
@[simp] theorem State.setLink_bind (l : Nat) (x : Link) : (s.setLink l x).bind = s.bind := rfl
@[simp] theorem State.setLink_niBufs (l : Nat) (x : Link) : (s.setLink l x).niBufs = s.niBufs := rfl
@[simp] theorem State.setLink_rankTables (l : Nat) (x : Link) : (s.setLink l x).rankTables = s.rankTables := rfl
@[simp] theorem State.setLink_niOwn (l : Nat) (x : Link) : (s.setLink l x).niOwn = s.niOwn := rfl
@[simp] theorem State.setLink_srv (l : Nat) (x : Link) : (s.setLink l x).srv = s.srv := rfl
@[simp] theorem State.setLink_fns (l : Nat) (x : Link) : (s.setLink l x).fns = s.fns := rfl
@[simp] theorem State.setLink_hostWaits (l : Nat) (x : Link) : (s.setLink l x).hostWaits = s.hostWaits := rfl
@[simp] theorem State.setLink_rowSets (l : Nat) (x : Link) : (s.setLink l x).rowSets = s.rowSets := rfl
@[simp] theorem State.setLink_rowOps (l : Nat) (x : Link) : (s.setLink l x).rowOps = s.rowOps := rfl
@[simp] theorem State.setLink_crossings (l : Nat) (x : Link) : (s.setLink l x).crossings = s.crossings := rfl
@[simp] theorem State.setLink_d2dBuf (l : Nat) (x : Link) : (s.setLink l x).d2dBuf = s.d2dBuf := rfl
@[simp] theorem State.setLink_landed (l : Nat) (x : Link) : (s.setLink l x).landed = s.landed := rfl
@[simp] theorem State.setLink_setNow (l : Nat) (x : Link) : (s.setLink l x).setNow = s.setNow := rfl
@[simp] theorem State.setLink_incNow (l : Nat) (x : Link) : (s.setLink l x).incNow = s.incNow := rfl
@[simp] theorem State.setLink_numWas (l : Nat) (x : Link) : (s.setLink l x).numWas = s.numWas := rfl
@[simp] theorem State.setLink_skErr (l : Nat) (x : Link) : (s.setLink l x).skErr = s.skErr := rfl
@[simp] theorem State.setLink_hostGrants (l : Nat) (x : Link) : (s.setLink l x).hostGrants = s.hostGrants := rfl
@[simp] theorem State.setLink_icus (l : Nat) (x : Link) : (s.setLink l x).icus = s.icus := rfl
@[simp] theorem State.setLink_doms (l : Nat) (x : Link) : (s.setLink l x).doms = s.doms := rfl
@[simp] theorem State.setLink_thms (l : Nat) (x : Link) : (s.setLink l x).thms = s.thms := rfl
@[simp] theorem State.setLink_d2ds (l : Nat) (x : Link) : (s.setLink l x).d2ds = s.d2ds := rfl
@[simp] theorem State.setLink_boot (l : Nat) (x : Link) : (s.setLink l x).boot = s.boot := rfl
@[simp] theorem State.setLink_flt (l : Nat) (x : Link) : (s.setLink l x).flt = s.flt := rfl
@[simp] theorem State.setLink_evrs (l : Nat) (x : Link) : (s.setLink l x).evrs = s.evrs := rfl
@[simp] theorem State.setLink_harts (l : Nat) (x : Link) : (s.setLink l x).harts = s.harts := rfl
@[simp] theorem State.setLink_ccKick (l : Nat) (x : Link) : (s.setLink l x).ccKick = s.ccKick := rfl
@[simp] theorem State.setLink_mgmt (l : Nat) (x : Link) : (s.setLink l x).mgmt = s.mgmt := rfl
@[simp] theorem State.setLink_sent (l : Nat) (x : Link) : (s.setLink l x).sent = s.sent := rfl
@[simp] theorem State.setLink_reply (l : Nat) (x : Link) : (s.setLink l x).reply = s.reply := rfl

/-! ## `setNode`: it changes `nodes` alone -/

@[simp] theorem State.setNode_pending (n : Nat) (x : Node) : (s.setNode n x).pending = s.pending := rfl
@[simp] theorem State.setNode_fuses (n : Nat) (x : Node) : (s.setNode n x).fuses = s.fuses := rfl
@[simp] theorem State.setNode_wall (n : Nat) (x : Node) : (s.setNode n x).wall = s.wall := rfl
@[simp] theorem State.setNode_ptc (n : Nat) (x : Node) : (s.setNode n x).ptc = s.ptc := rfl
@[simp] theorem State.setNode_time (n : Nat) (x : Node) : (s.setNode n x).time = s.time := rfl
@[simp] theorem State.setNode_clk (n : Nat) (x : Node) : (s.setNode n x).clk = s.clk := rfl
@[simp] theorem State.setNode_pins (n : Nat) (x : Node) : (s.setNode n x).pins = s.pins := rfl
@[simp] theorem State.setNode_regs (n : Nat) (x : Node) : (s.setNode n x).regs = s.regs := rfl
@[simp] theorem State.setNode_cnt (n : Nat) (x : Node) : (s.setNode n x).cnt = s.cnt := rfl
@[simp] theorem State.setNode_faultAt (n : Nat) (x : Node) : (s.setNode n x).faultAt = s.faultAt := rfl
@[simp] theorem State.setNode_cores (n : Nat) (x : Node) : (s.setNode n x).cores = s.cores := rfl
@[simp] theorem State.setNode_shared (n : Nat) (x : Node) : (s.setNode n x).shared = s.shared := rfl
@[simp] theorem State.setNode_skein (n : Nat) (x : Node) : (s.setNode n x).skein = s.skein := rfl
@[simp] theorem State.setNode_hbm (n : Nat) (x : Node) : (s.setNode n x).hbm = s.hbm := rfl
@[simp] theorem State.setNode_stashMem (n : Nat) (x : Node) : (s.setNode n x).stashMem = s.stashMem := rfl
@[simp] theorem State.setNode_sram (n : Nat) (x : Node) : (s.setNode n x).sram = s.sram := rfl
@[simp] theorem State.setNode_hostMem (n : Nat) (x : Node) : (s.setNode n x).hostMem = s.hostMem := rfl
@[simp] theorem State.setNode_bootMem (n : Nat) (x : Node) : (s.setNode n x).bootMem = s.bootMem := rfl
@[simp] theorem State.setNode_bbMem (n : Nat) (x : Node) : (s.setNode n x).bbMem = s.bbMem := rfl
@[simp] theorem State.setNode_hold (n : Nat) (x : Node) : (s.setNode n x).hold = s.hold := rfl
@[simp] theorem State.setNode_nextHold (n : Nat) (x : Node) : (s.setNode n x).nextHold = s.nextHold := rfl
@[simp] theorem State.setNode_holdSeq (n : Nat) (x : Node) : (s.setNode n x).holdSeq = s.holdSeq := rfl
@[simp] theorem State.setNode_holdLog (n : Nat) (x : Node) : (s.setNode n x).holdLog = s.holdLog := rfl
@[simp] theorem State.setNode_windows (n : Nat) (x : Node) : (s.setNode n x).windows = s.windows := rfl
@[simp] theorem State.setNode_level (n : Nat) (x : Node) : (s.setNode n x).level = s.level := rfl
@[simp] theorem State.setNode_hbmStacks (n : Nat) (x : Node) : (s.setNode n x).hbmStacks = s.hbmStacks := rfl
@[simp] theorem State.setNode_hostReads (n : Nat) (x : Node) : (s.setNode n x).hostReads = s.hostReads := rfl
@[simp] theorem State.setNode_stashes (n : Nat) (x : Node) : (s.setNode n x).stashes = s.stashes := rfl
@[simp] theorem State.setNode_scrubPos (n : Nat) (x : Node) : (s.setNode n x).scrubPos = s.scrubPos := rfl
@[simp] theorem State.setNode_scrubFrom (n : Nat) (x : Node) : (s.setNode n x).scrubFrom = s.scrubFrom := rfl
@[simp] theorem State.setNode_castMsgs (n : Nat) (x : Node) : (s.setNode n x).castMsgs = s.castMsgs := rfl
@[simp] theorem State.setNode_castSt (n : Nat) (x : Node) : (s.setNode n x).castSt = s.castSt := rfl
@[simp] theorem State.setNode_castDeferred (n : Nat) (x : Node) : (s.setNode n x).castDeferred = s.castDeferred := rfl
@[simp] theorem State.setNode_jobLive (n : Nat) (x : Node) : (s.setNode n x).jobLive = s.jobLive := rfl
@[simp] theorem State.setNode_castRelease (n : Nat) (x : Node) : (s.setNode n x).castRelease = s.castRelease := rfl
@[simp] theorem State.setNode_bind (n : Nat) (x : Node) : (s.setNode n x).bind = s.bind := rfl
@[simp] theorem State.setNode_links (n : Nat) (x : Node) : (s.setNode n x).links = s.links := rfl
@[simp] theorem State.setNode_niBufs (n : Nat) (x : Node) : (s.setNode n x).niBufs = s.niBufs := rfl
@[simp] theorem State.setNode_rankTables (n : Nat) (x : Node) : (s.setNode n x).rankTables = s.rankTables := rfl
@[simp] theorem State.setNode_niOwn (n : Nat) (x : Node) : (s.setNode n x).niOwn = s.niOwn := rfl
@[simp] theorem State.setNode_srv (n : Nat) (x : Node) : (s.setNode n x).srv = s.srv := rfl
@[simp] theorem State.setNode_fns (n : Nat) (x : Node) : (s.setNode n x).fns = s.fns := rfl
@[simp] theorem State.setNode_hostWaits (n : Nat) (x : Node) : (s.setNode n x).hostWaits = s.hostWaits := rfl
@[simp] theorem State.setNode_rowSets (n : Nat) (x : Node) : (s.setNode n x).rowSets = s.rowSets := rfl
@[simp] theorem State.setNode_rowOps (n : Nat) (x : Node) : (s.setNode n x).rowOps = s.rowOps := rfl
@[simp] theorem State.setNode_crossings (n : Nat) (x : Node) : (s.setNode n x).crossings = s.crossings := rfl
@[simp] theorem State.setNode_d2dBuf (n : Nat) (x : Node) : (s.setNode n x).d2dBuf = s.d2dBuf := rfl
@[simp] theorem State.setNode_landed (n : Nat) (x : Node) : (s.setNode n x).landed = s.landed := rfl
@[simp] theorem State.setNode_setNow (n : Nat) (x : Node) : (s.setNode n x).setNow = s.setNow := rfl
@[simp] theorem State.setNode_incNow (n : Nat) (x : Node) : (s.setNode n x).incNow = s.incNow := rfl
@[simp] theorem State.setNode_numWas (n : Nat) (x : Node) : (s.setNode n x).numWas = s.numWas := rfl
@[simp] theorem State.setNode_skErr (n : Nat) (x : Node) : (s.setNode n x).skErr = s.skErr := rfl
@[simp] theorem State.setNode_hostGrants (n : Nat) (x : Node) : (s.setNode n x).hostGrants = s.hostGrants := rfl
@[simp] theorem State.setNode_icus (n : Nat) (x : Node) : (s.setNode n x).icus = s.icus := rfl
@[simp] theorem State.setNode_doms (n : Nat) (x : Node) : (s.setNode n x).doms = s.doms := rfl
@[simp] theorem State.setNode_thms (n : Nat) (x : Node) : (s.setNode n x).thms = s.thms := rfl
@[simp] theorem State.setNode_d2ds (n : Nat) (x : Node) : (s.setNode n x).d2ds = s.d2ds := rfl
@[simp] theorem State.setNode_boot (n : Nat) (x : Node) : (s.setNode n x).boot = s.boot := rfl
@[simp] theorem State.setNode_flt (n : Nat) (x : Node) : (s.setNode n x).flt = s.flt := rfl
@[simp] theorem State.setNode_evrs (n : Nat) (x : Node) : (s.setNode n x).evrs = s.evrs := rfl
@[simp] theorem State.setNode_harts (n : Nat) (x : Node) : (s.setNode n x).harts = s.harts := rfl
@[simp] theorem State.setNode_ccKick (n : Nat) (x : Node) : (s.setNode n x).ccKick = s.ccKick := rfl
@[simp] theorem State.setNode_mgmt (n : Nat) (x : Node) : (s.setNode n x).mgmt = s.mgmt := rfl
@[simp] theorem State.setNode_sent (n : Nat) (x : Node) : (s.setNode n x).sent = s.sent := rfl
@[simp] theorem State.setNode_reply (n : Nat) (x : Node) : (s.setNode n x).reply = s.reply := rfl

/-! ## `setD2d`: it changes `d2ds` alone -/

@[simp] theorem State.setD2d_pending (p j : Nat) (x : D2d) : (s.setD2d p j x).pending = s.pending := rfl
@[simp] theorem State.setD2d_fuses (p j : Nat) (x : D2d) : (s.setD2d p j x).fuses = s.fuses := rfl
@[simp] theorem State.setD2d_wall (p j : Nat) (x : D2d) : (s.setD2d p j x).wall = s.wall := rfl
@[simp] theorem State.setD2d_ptc (p j : Nat) (x : D2d) : (s.setD2d p j x).ptc = s.ptc := rfl
@[simp] theorem State.setD2d_time (p j : Nat) (x : D2d) : (s.setD2d p j x).time = s.time := rfl
@[simp] theorem State.setD2d_clk (p j : Nat) (x : D2d) : (s.setD2d p j x).clk = s.clk := rfl
@[simp] theorem State.setD2d_pins (p j : Nat) (x : D2d) : (s.setD2d p j x).pins = s.pins := rfl
@[simp] theorem State.setD2d_regs (p j : Nat) (x : D2d) : (s.setD2d p j x).regs = s.regs := rfl
@[simp] theorem State.setD2d_cnt (p j : Nat) (x : D2d) : (s.setD2d p j x).cnt = s.cnt := rfl
@[simp] theorem State.setD2d_faultAt (p j : Nat) (x : D2d) : (s.setD2d p j x).faultAt = s.faultAt := rfl
@[simp] theorem State.setD2d_cores (p j : Nat) (x : D2d) : (s.setD2d p j x).cores = s.cores := rfl
@[simp] theorem State.setD2d_shared (p j : Nat) (x : D2d) : (s.setD2d p j x).shared = s.shared := rfl
@[simp] theorem State.setD2d_skein (p j : Nat) (x : D2d) : (s.setD2d p j x).skein = s.skein := rfl
@[simp] theorem State.setD2d_hbm (p j : Nat) (x : D2d) : (s.setD2d p j x).hbm = s.hbm := rfl
@[simp] theorem State.setD2d_stashMem (p j : Nat) (x : D2d) : (s.setD2d p j x).stashMem = s.stashMem := rfl
@[simp] theorem State.setD2d_sram (p j : Nat) (x : D2d) : (s.setD2d p j x).sram = s.sram := rfl
@[simp] theorem State.setD2d_hostMem (p j : Nat) (x : D2d) : (s.setD2d p j x).hostMem = s.hostMem := rfl
@[simp] theorem State.setD2d_bootMem (p j : Nat) (x : D2d) : (s.setD2d p j x).bootMem = s.bootMem := rfl
@[simp] theorem State.setD2d_bbMem (p j : Nat) (x : D2d) : (s.setD2d p j x).bbMem = s.bbMem := rfl
@[simp] theorem State.setD2d_hold (p j : Nat) (x : D2d) : (s.setD2d p j x).hold = s.hold := rfl
@[simp] theorem State.setD2d_nextHold (p j : Nat) (x : D2d) : (s.setD2d p j x).nextHold = s.nextHold := rfl
@[simp] theorem State.setD2d_holdSeq (p j : Nat) (x : D2d) : (s.setD2d p j x).holdSeq = s.holdSeq := rfl
@[simp] theorem State.setD2d_holdLog (p j : Nat) (x : D2d) : (s.setD2d p j x).holdLog = s.holdLog := rfl
@[simp] theorem State.setD2d_windows (p j : Nat) (x : D2d) : (s.setD2d p j x).windows = s.windows := rfl
@[simp] theorem State.setD2d_level (p j : Nat) (x : D2d) : (s.setD2d p j x).level = s.level := rfl
@[simp] theorem State.setD2d_hbmStacks (p j : Nat) (x : D2d) : (s.setD2d p j x).hbmStacks = s.hbmStacks := rfl
@[simp] theorem State.setD2d_hostReads (p j : Nat) (x : D2d) : (s.setD2d p j x).hostReads = s.hostReads := rfl
@[simp] theorem State.setD2d_stashes (p j : Nat) (x : D2d) : (s.setD2d p j x).stashes = s.stashes := rfl
@[simp] theorem State.setD2d_scrubPos (p j : Nat) (x : D2d) : (s.setD2d p j x).scrubPos = s.scrubPos := rfl
@[simp] theorem State.setD2d_scrubFrom (p j : Nat) (x : D2d) : (s.setD2d p j x).scrubFrom = s.scrubFrom := rfl
@[simp] theorem State.setD2d_nodes (p j : Nat) (x : D2d) : (s.setD2d p j x).nodes = s.nodes := rfl
@[simp] theorem State.setD2d_castMsgs (p j : Nat) (x : D2d) : (s.setD2d p j x).castMsgs = s.castMsgs := rfl
@[simp] theorem State.setD2d_castSt (p j : Nat) (x : D2d) : (s.setD2d p j x).castSt = s.castSt := rfl
@[simp] theorem State.setD2d_castDeferred (p j : Nat) (x : D2d) : (s.setD2d p j x).castDeferred = s.castDeferred := rfl
@[simp] theorem State.setD2d_jobLive (p j : Nat) (x : D2d) : (s.setD2d p j x).jobLive = s.jobLive := rfl
@[simp] theorem State.setD2d_castRelease (p j : Nat) (x : D2d) : (s.setD2d p j x).castRelease = s.castRelease := rfl
@[simp] theorem State.setD2d_bind (p j : Nat) (x : D2d) : (s.setD2d p j x).bind = s.bind := rfl
@[simp] theorem State.setD2d_links (p j : Nat) (x : D2d) : (s.setD2d p j x).links = s.links := rfl
@[simp] theorem State.setD2d_niBufs (p j : Nat) (x : D2d) : (s.setD2d p j x).niBufs = s.niBufs := rfl
@[simp] theorem State.setD2d_rankTables (p j : Nat) (x : D2d) : (s.setD2d p j x).rankTables = s.rankTables := rfl
@[simp] theorem State.setD2d_niOwn (p j : Nat) (x : D2d) : (s.setD2d p j x).niOwn = s.niOwn := rfl
@[simp] theorem State.setD2d_srv (p j : Nat) (x : D2d) : (s.setD2d p j x).srv = s.srv := rfl
@[simp] theorem State.setD2d_fns (p j : Nat) (x : D2d) : (s.setD2d p j x).fns = s.fns := rfl
@[simp] theorem State.setD2d_hostWaits (p j : Nat) (x : D2d) : (s.setD2d p j x).hostWaits = s.hostWaits := rfl
@[simp] theorem State.setD2d_rowSets (p j : Nat) (x : D2d) : (s.setD2d p j x).rowSets = s.rowSets := rfl
@[simp] theorem State.setD2d_rowOps (p j : Nat) (x : D2d) : (s.setD2d p j x).rowOps = s.rowOps := rfl
@[simp] theorem State.setD2d_crossings (p j : Nat) (x : D2d) : (s.setD2d p j x).crossings = s.crossings := rfl
@[simp] theorem State.setD2d_d2dBuf (p j : Nat) (x : D2d) : (s.setD2d p j x).d2dBuf = s.d2dBuf := rfl
@[simp] theorem State.setD2d_landed (p j : Nat) (x : D2d) : (s.setD2d p j x).landed = s.landed := rfl
@[simp] theorem State.setD2d_setNow (p j : Nat) (x : D2d) : (s.setD2d p j x).setNow = s.setNow := rfl
@[simp] theorem State.setD2d_incNow (p j : Nat) (x : D2d) : (s.setD2d p j x).incNow = s.incNow := rfl
@[simp] theorem State.setD2d_numWas (p j : Nat) (x : D2d) : (s.setD2d p j x).numWas = s.numWas := rfl
@[simp] theorem State.setD2d_skErr (p j : Nat) (x : D2d) : (s.setD2d p j x).skErr = s.skErr := rfl
@[simp] theorem State.setD2d_hostGrants (p j : Nat) (x : D2d) : (s.setD2d p j x).hostGrants = s.hostGrants := rfl
@[simp] theorem State.setD2d_icus (p j : Nat) (x : D2d) : (s.setD2d p j x).icus = s.icus := rfl
@[simp] theorem State.setD2d_doms (p j : Nat) (x : D2d) : (s.setD2d p j x).doms = s.doms := rfl
@[simp] theorem State.setD2d_thms (p j : Nat) (x : D2d) : (s.setD2d p j x).thms = s.thms := rfl
@[simp] theorem State.setD2d_boot (p j : Nat) (x : D2d) : (s.setD2d p j x).boot = s.boot := rfl
@[simp] theorem State.setD2d_flt (p j : Nat) (x : D2d) : (s.setD2d p j x).flt = s.flt := rfl
@[simp] theorem State.setD2d_evrs (p j : Nat) (x : D2d) : (s.setD2d p j x).evrs = s.evrs := rfl
@[simp] theorem State.setD2d_harts (p j : Nat) (x : D2d) : (s.setD2d p j x).harts = s.harts := rfl
@[simp] theorem State.setD2d_ccKick (p j : Nat) (x : D2d) : (s.setD2d p j x).ccKick = s.ccKick := rfl
@[simp] theorem State.setD2d_mgmt (p j : Nat) (x : D2d) : (s.setD2d p j x).mgmt = s.mgmt := rfl
@[simp] theorem State.setD2d_sent (p j : Nat) (x : D2d) : (s.setD2d p j x).sent = s.sent := rfl
@[simp] theorem State.setD2d_reply (p j : Nat) (x : D2d) : (s.setD2d p j x).reply = s.reply := rfl

/-! ## `setThm`: it changes `thms` alone -/

@[simp] theorem State.setThm_pending (p : Nat) (x : Thm) : (s.setThm p x).pending = s.pending := rfl
@[simp] theorem State.setThm_fuses (p : Nat) (x : Thm) : (s.setThm p x).fuses = s.fuses := rfl
@[simp] theorem State.setThm_wall (p : Nat) (x : Thm) : (s.setThm p x).wall = s.wall := rfl
@[simp] theorem State.setThm_ptc (p : Nat) (x : Thm) : (s.setThm p x).ptc = s.ptc := rfl
@[simp] theorem State.setThm_time (p : Nat) (x : Thm) : (s.setThm p x).time = s.time := rfl
@[simp] theorem State.setThm_clk (p : Nat) (x : Thm) : (s.setThm p x).clk = s.clk := rfl
@[simp] theorem State.setThm_pins (p : Nat) (x : Thm) : (s.setThm p x).pins = s.pins := rfl
@[simp] theorem State.setThm_regs (p : Nat) (x : Thm) : (s.setThm p x).regs = s.regs := rfl
@[simp] theorem State.setThm_cnt (p : Nat) (x : Thm) : (s.setThm p x).cnt = s.cnt := rfl
@[simp] theorem State.setThm_faultAt (p : Nat) (x : Thm) : (s.setThm p x).faultAt = s.faultAt := rfl
@[simp] theorem State.setThm_cores (p : Nat) (x : Thm) : (s.setThm p x).cores = s.cores := rfl
@[simp] theorem State.setThm_shared (p : Nat) (x : Thm) : (s.setThm p x).shared = s.shared := rfl
@[simp] theorem State.setThm_skein (p : Nat) (x : Thm) : (s.setThm p x).skein = s.skein := rfl
@[simp] theorem State.setThm_hbm (p : Nat) (x : Thm) : (s.setThm p x).hbm = s.hbm := rfl
@[simp] theorem State.setThm_stashMem (p : Nat) (x : Thm) : (s.setThm p x).stashMem = s.stashMem := rfl
@[simp] theorem State.setThm_sram (p : Nat) (x : Thm) : (s.setThm p x).sram = s.sram := rfl
@[simp] theorem State.setThm_hostMem (p : Nat) (x : Thm) : (s.setThm p x).hostMem = s.hostMem := rfl
@[simp] theorem State.setThm_bootMem (p : Nat) (x : Thm) : (s.setThm p x).bootMem = s.bootMem := rfl
@[simp] theorem State.setThm_bbMem (p : Nat) (x : Thm) : (s.setThm p x).bbMem = s.bbMem := rfl
@[simp] theorem State.setThm_hold (p : Nat) (x : Thm) : (s.setThm p x).hold = s.hold := rfl
@[simp] theorem State.setThm_nextHold (p : Nat) (x : Thm) : (s.setThm p x).nextHold = s.nextHold := rfl
@[simp] theorem State.setThm_holdSeq (p : Nat) (x : Thm) : (s.setThm p x).holdSeq = s.holdSeq := rfl
@[simp] theorem State.setThm_holdLog (p : Nat) (x : Thm) : (s.setThm p x).holdLog = s.holdLog := rfl
@[simp] theorem State.setThm_windows (p : Nat) (x : Thm) : (s.setThm p x).windows = s.windows := rfl
@[simp] theorem State.setThm_level (p : Nat) (x : Thm) : (s.setThm p x).level = s.level := rfl
@[simp] theorem State.setThm_hbmStacks (p : Nat) (x : Thm) : (s.setThm p x).hbmStacks = s.hbmStacks := rfl
@[simp] theorem State.setThm_hostReads (p : Nat) (x : Thm) : (s.setThm p x).hostReads = s.hostReads := rfl
@[simp] theorem State.setThm_stashes (p : Nat) (x : Thm) : (s.setThm p x).stashes = s.stashes := rfl
@[simp] theorem State.setThm_scrubPos (p : Nat) (x : Thm) : (s.setThm p x).scrubPos = s.scrubPos := rfl
@[simp] theorem State.setThm_scrubFrom (p : Nat) (x : Thm) : (s.setThm p x).scrubFrom = s.scrubFrom := rfl
@[simp] theorem State.setThm_nodes (p : Nat) (x : Thm) : (s.setThm p x).nodes = s.nodes := rfl
@[simp] theorem State.setThm_castMsgs (p : Nat) (x : Thm) : (s.setThm p x).castMsgs = s.castMsgs := rfl
@[simp] theorem State.setThm_castSt (p : Nat) (x : Thm) : (s.setThm p x).castSt = s.castSt := rfl
@[simp] theorem State.setThm_castDeferred (p : Nat) (x : Thm) : (s.setThm p x).castDeferred = s.castDeferred := rfl
@[simp] theorem State.setThm_jobLive (p : Nat) (x : Thm) : (s.setThm p x).jobLive = s.jobLive := rfl
@[simp] theorem State.setThm_castRelease (p : Nat) (x : Thm) : (s.setThm p x).castRelease = s.castRelease := rfl
@[simp] theorem State.setThm_bind (p : Nat) (x : Thm) : (s.setThm p x).bind = s.bind := rfl
@[simp] theorem State.setThm_links (p : Nat) (x : Thm) : (s.setThm p x).links = s.links := rfl
@[simp] theorem State.setThm_niBufs (p : Nat) (x : Thm) : (s.setThm p x).niBufs = s.niBufs := rfl
@[simp] theorem State.setThm_rankTables (p : Nat) (x : Thm) : (s.setThm p x).rankTables = s.rankTables := rfl
@[simp] theorem State.setThm_niOwn (p : Nat) (x : Thm) : (s.setThm p x).niOwn = s.niOwn := rfl
@[simp] theorem State.setThm_srv (p : Nat) (x : Thm) : (s.setThm p x).srv = s.srv := rfl
@[simp] theorem State.setThm_fns (p : Nat) (x : Thm) : (s.setThm p x).fns = s.fns := rfl
@[simp] theorem State.setThm_hostWaits (p : Nat) (x : Thm) : (s.setThm p x).hostWaits = s.hostWaits := rfl
@[simp] theorem State.setThm_rowSets (p : Nat) (x : Thm) : (s.setThm p x).rowSets = s.rowSets := rfl
@[simp] theorem State.setThm_rowOps (p : Nat) (x : Thm) : (s.setThm p x).rowOps = s.rowOps := rfl
@[simp] theorem State.setThm_crossings (p : Nat) (x : Thm) : (s.setThm p x).crossings = s.crossings := rfl
@[simp] theorem State.setThm_d2dBuf (p : Nat) (x : Thm) : (s.setThm p x).d2dBuf = s.d2dBuf := rfl
@[simp] theorem State.setThm_landed (p : Nat) (x : Thm) : (s.setThm p x).landed = s.landed := rfl
@[simp] theorem State.setThm_setNow (p : Nat) (x : Thm) : (s.setThm p x).setNow = s.setNow := rfl
@[simp] theorem State.setThm_incNow (p : Nat) (x : Thm) : (s.setThm p x).incNow = s.incNow := rfl
@[simp] theorem State.setThm_numWas (p : Nat) (x : Thm) : (s.setThm p x).numWas = s.numWas := rfl
@[simp] theorem State.setThm_skErr (p : Nat) (x : Thm) : (s.setThm p x).skErr = s.skErr := rfl
@[simp] theorem State.setThm_hostGrants (p : Nat) (x : Thm) : (s.setThm p x).hostGrants = s.hostGrants := rfl
@[simp] theorem State.setThm_icus (p : Nat) (x : Thm) : (s.setThm p x).icus = s.icus := rfl
@[simp] theorem State.setThm_doms (p : Nat) (x : Thm) : (s.setThm p x).doms = s.doms := rfl
@[simp] theorem State.setThm_d2ds (p : Nat) (x : Thm) : (s.setThm p x).d2ds = s.d2ds := rfl
@[simp] theorem State.setThm_boot (p : Nat) (x : Thm) : (s.setThm p x).boot = s.boot := rfl
@[simp] theorem State.setThm_flt (p : Nat) (x : Thm) : (s.setThm p x).flt = s.flt := rfl
@[simp] theorem State.setThm_evrs (p : Nat) (x : Thm) : (s.setThm p x).evrs = s.evrs := rfl
@[simp] theorem State.setThm_harts (p : Nat) (x : Thm) : (s.setThm p x).harts = s.harts := rfl
@[simp] theorem State.setThm_ccKick (p : Nat) (x : Thm) : (s.setThm p x).ccKick = s.ccKick := rfl
@[simp] theorem State.setThm_mgmt (p : Nat) (x : Thm) : (s.setThm p x).mgmt = s.mgmt := rfl
@[simp] theorem State.setThm_sent (p : Nat) (x : Thm) : (s.setThm p x).sent = s.sent := rfl
@[simp] theorem State.setThm_reply (p : Nat) (x : Thm) : (s.setThm p x).reply = s.reply := rfl

/-! ## `setIcu`: it changes `icus` alone -/

@[simp] theorem State.setIcu_pending (p : Nat) (x : Icu) : (s.setIcu p x).pending = s.pending := rfl
@[simp] theorem State.setIcu_fuses (p : Nat) (x : Icu) : (s.setIcu p x).fuses = s.fuses := rfl
@[simp] theorem State.setIcu_wall (p : Nat) (x : Icu) : (s.setIcu p x).wall = s.wall := rfl
@[simp] theorem State.setIcu_ptc (p : Nat) (x : Icu) : (s.setIcu p x).ptc = s.ptc := rfl
@[simp] theorem State.setIcu_time (p : Nat) (x : Icu) : (s.setIcu p x).time = s.time := rfl
@[simp] theorem State.setIcu_clk (p : Nat) (x : Icu) : (s.setIcu p x).clk = s.clk := rfl
@[simp] theorem State.setIcu_pins (p : Nat) (x : Icu) : (s.setIcu p x).pins = s.pins := rfl
@[simp] theorem State.setIcu_regs (p : Nat) (x : Icu) : (s.setIcu p x).regs = s.regs := rfl
@[simp] theorem State.setIcu_cnt (p : Nat) (x : Icu) : (s.setIcu p x).cnt = s.cnt := rfl
@[simp] theorem State.setIcu_faultAt (p : Nat) (x : Icu) : (s.setIcu p x).faultAt = s.faultAt := rfl
@[simp] theorem State.setIcu_cores (p : Nat) (x : Icu) : (s.setIcu p x).cores = s.cores := rfl
@[simp] theorem State.setIcu_shared (p : Nat) (x : Icu) : (s.setIcu p x).shared = s.shared := rfl
@[simp] theorem State.setIcu_skein (p : Nat) (x : Icu) : (s.setIcu p x).skein = s.skein := rfl
@[simp] theorem State.setIcu_hbm (p : Nat) (x : Icu) : (s.setIcu p x).hbm = s.hbm := rfl
@[simp] theorem State.setIcu_stashMem (p : Nat) (x : Icu) : (s.setIcu p x).stashMem = s.stashMem := rfl
@[simp] theorem State.setIcu_sram (p : Nat) (x : Icu) : (s.setIcu p x).sram = s.sram := rfl
@[simp] theorem State.setIcu_hostMem (p : Nat) (x : Icu) : (s.setIcu p x).hostMem = s.hostMem := rfl
@[simp] theorem State.setIcu_bootMem (p : Nat) (x : Icu) : (s.setIcu p x).bootMem = s.bootMem := rfl
@[simp] theorem State.setIcu_bbMem (p : Nat) (x : Icu) : (s.setIcu p x).bbMem = s.bbMem := rfl
@[simp] theorem State.setIcu_hold (p : Nat) (x : Icu) : (s.setIcu p x).hold = s.hold := rfl
@[simp] theorem State.setIcu_nextHold (p : Nat) (x : Icu) : (s.setIcu p x).nextHold = s.nextHold := rfl
@[simp] theorem State.setIcu_holdSeq (p : Nat) (x : Icu) : (s.setIcu p x).holdSeq = s.holdSeq := rfl
@[simp] theorem State.setIcu_holdLog (p : Nat) (x : Icu) : (s.setIcu p x).holdLog = s.holdLog := rfl
@[simp] theorem State.setIcu_windows (p : Nat) (x : Icu) : (s.setIcu p x).windows = s.windows := rfl
@[simp] theorem State.setIcu_level (p : Nat) (x : Icu) : (s.setIcu p x).level = s.level := rfl
@[simp] theorem State.setIcu_hbmStacks (p : Nat) (x : Icu) : (s.setIcu p x).hbmStacks = s.hbmStacks := rfl
@[simp] theorem State.setIcu_hostReads (p : Nat) (x : Icu) : (s.setIcu p x).hostReads = s.hostReads := rfl
@[simp] theorem State.setIcu_stashes (p : Nat) (x : Icu) : (s.setIcu p x).stashes = s.stashes := rfl
@[simp] theorem State.setIcu_scrubPos (p : Nat) (x : Icu) : (s.setIcu p x).scrubPos = s.scrubPos := rfl
@[simp] theorem State.setIcu_scrubFrom (p : Nat) (x : Icu) : (s.setIcu p x).scrubFrom = s.scrubFrom := rfl
@[simp] theorem State.setIcu_nodes (p : Nat) (x : Icu) : (s.setIcu p x).nodes = s.nodes := rfl
@[simp] theorem State.setIcu_castMsgs (p : Nat) (x : Icu) : (s.setIcu p x).castMsgs = s.castMsgs := rfl
@[simp] theorem State.setIcu_castSt (p : Nat) (x : Icu) : (s.setIcu p x).castSt = s.castSt := rfl
@[simp] theorem State.setIcu_castDeferred (p : Nat) (x : Icu) : (s.setIcu p x).castDeferred = s.castDeferred := rfl
@[simp] theorem State.setIcu_jobLive (p : Nat) (x : Icu) : (s.setIcu p x).jobLive = s.jobLive := rfl
@[simp] theorem State.setIcu_castRelease (p : Nat) (x : Icu) : (s.setIcu p x).castRelease = s.castRelease := rfl
@[simp] theorem State.setIcu_bind (p : Nat) (x : Icu) : (s.setIcu p x).bind = s.bind := rfl
@[simp] theorem State.setIcu_links (p : Nat) (x : Icu) : (s.setIcu p x).links = s.links := rfl
@[simp] theorem State.setIcu_niBufs (p : Nat) (x : Icu) : (s.setIcu p x).niBufs = s.niBufs := rfl
@[simp] theorem State.setIcu_rankTables (p : Nat) (x : Icu) : (s.setIcu p x).rankTables = s.rankTables := rfl
@[simp] theorem State.setIcu_niOwn (p : Nat) (x : Icu) : (s.setIcu p x).niOwn = s.niOwn := rfl
@[simp] theorem State.setIcu_srv (p : Nat) (x : Icu) : (s.setIcu p x).srv = s.srv := rfl
@[simp] theorem State.setIcu_fns (p : Nat) (x : Icu) : (s.setIcu p x).fns = s.fns := rfl
@[simp] theorem State.setIcu_hostWaits (p : Nat) (x : Icu) : (s.setIcu p x).hostWaits = s.hostWaits := rfl
@[simp] theorem State.setIcu_rowSets (p : Nat) (x : Icu) : (s.setIcu p x).rowSets = s.rowSets := rfl
@[simp] theorem State.setIcu_rowOps (p : Nat) (x : Icu) : (s.setIcu p x).rowOps = s.rowOps := rfl
@[simp] theorem State.setIcu_crossings (p : Nat) (x : Icu) : (s.setIcu p x).crossings = s.crossings := rfl
@[simp] theorem State.setIcu_d2dBuf (p : Nat) (x : Icu) : (s.setIcu p x).d2dBuf = s.d2dBuf := rfl
@[simp] theorem State.setIcu_landed (p : Nat) (x : Icu) : (s.setIcu p x).landed = s.landed := rfl
@[simp] theorem State.setIcu_setNow (p : Nat) (x : Icu) : (s.setIcu p x).setNow = s.setNow := rfl
@[simp] theorem State.setIcu_incNow (p : Nat) (x : Icu) : (s.setIcu p x).incNow = s.incNow := rfl
@[simp] theorem State.setIcu_numWas (p : Nat) (x : Icu) : (s.setIcu p x).numWas = s.numWas := rfl
@[simp] theorem State.setIcu_skErr (p : Nat) (x : Icu) : (s.setIcu p x).skErr = s.skErr := rfl
@[simp] theorem State.setIcu_hostGrants (p : Nat) (x : Icu) : (s.setIcu p x).hostGrants = s.hostGrants := rfl
@[simp] theorem State.setIcu_doms (p : Nat) (x : Icu) : (s.setIcu p x).doms = s.doms := rfl
@[simp] theorem State.setIcu_thms (p : Nat) (x : Icu) : (s.setIcu p x).thms = s.thms := rfl
@[simp] theorem State.setIcu_d2ds (p : Nat) (x : Icu) : (s.setIcu p x).d2ds = s.d2ds := rfl
@[simp] theorem State.setIcu_boot (p : Nat) (x : Icu) : (s.setIcu p x).boot = s.boot := rfl
@[simp] theorem State.setIcu_flt (p : Nat) (x : Icu) : (s.setIcu p x).flt = s.flt := rfl
@[simp] theorem State.setIcu_evrs (p : Nat) (x : Icu) : (s.setIcu p x).evrs = s.evrs := rfl
@[simp] theorem State.setIcu_harts (p : Nat) (x : Icu) : (s.setIcu p x).harts = s.harts := rfl
@[simp] theorem State.setIcu_ccKick (p : Nat) (x : Icu) : (s.setIcu p x).ccKick = s.ccKick := rfl
@[simp] theorem State.setIcu_mgmt (p : Nat) (x : Icu) : (s.setIcu p x).mgmt = s.mgmt := rfl
@[simp] theorem State.setIcu_sent (p : Nat) (x : Icu) : (s.setIcu p x).sent = s.sent := rfl
@[simp] theorem State.setIcu_reply (p : Nat) (x : Icu) : (s.setIcu p x).reply = s.reply := rfl

/-! ## `modSrv`: it changes `srv` alone -/

@[simp] theorem State.modSrv_pending (f : Srv → Srv) : (s.modSrv f).pending = s.pending := rfl
@[simp] theorem State.modSrv_fuses (f : Srv → Srv) : (s.modSrv f).fuses = s.fuses := rfl
@[simp] theorem State.modSrv_wall (f : Srv → Srv) : (s.modSrv f).wall = s.wall := rfl
@[simp] theorem State.modSrv_ptc (f : Srv → Srv) : (s.modSrv f).ptc = s.ptc := rfl
@[simp] theorem State.modSrv_time (f : Srv → Srv) : (s.modSrv f).time = s.time := rfl
@[simp] theorem State.modSrv_clk (f : Srv → Srv) : (s.modSrv f).clk = s.clk := rfl
@[simp] theorem State.modSrv_pins (f : Srv → Srv) : (s.modSrv f).pins = s.pins := rfl
@[simp] theorem State.modSrv_regs (f : Srv → Srv) : (s.modSrv f).regs = s.regs := rfl
@[simp] theorem State.modSrv_cnt (f : Srv → Srv) : (s.modSrv f).cnt = s.cnt := rfl
@[simp] theorem State.modSrv_faultAt (f : Srv → Srv) : (s.modSrv f).faultAt = s.faultAt := rfl
@[simp] theorem State.modSrv_cores (f : Srv → Srv) : (s.modSrv f).cores = s.cores := rfl
@[simp] theorem State.modSrv_shared (f : Srv → Srv) : (s.modSrv f).shared = s.shared := rfl
@[simp] theorem State.modSrv_skein (f : Srv → Srv) : (s.modSrv f).skein = s.skein := rfl
@[simp] theorem State.modSrv_hbm (f : Srv → Srv) : (s.modSrv f).hbm = s.hbm := rfl
@[simp] theorem State.modSrv_stashMem (f : Srv → Srv) : (s.modSrv f).stashMem = s.stashMem := rfl
@[simp] theorem State.modSrv_sram (f : Srv → Srv) : (s.modSrv f).sram = s.sram := rfl
@[simp] theorem State.modSrv_hostMem (f : Srv → Srv) : (s.modSrv f).hostMem = s.hostMem := rfl
@[simp] theorem State.modSrv_bootMem (f : Srv → Srv) : (s.modSrv f).bootMem = s.bootMem := rfl
@[simp] theorem State.modSrv_bbMem (f : Srv → Srv) : (s.modSrv f).bbMem = s.bbMem := rfl
@[simp] theorem State.modSrv_hold (f : Srv → Srv) : (s.modSrv f).hold = s.hold := rfl
@[simp] theorem State.modSrv_nextHold (f : Srv → Srv) : (s.modSrv f).nextHold = s.nextHold := rfl
@[simp] theorem State.modSrv_holdSeq (f : Srv → Srv) : (s.modSrv f).holdSeq = s.holdSeq := rfl
@[simp] theorem State.modSrv_holdLog (f : Srv → Srv) : (s.modSrv f).holdLog = s.holdLog := rfl
@[simp] theorem State.modSrv_windows (f : Srv → Srv) : (s.modSrv f).windows = s.windows := rfl
@[simp] theorem State.modSrv_level (f : Srv → Srv) : (s.modSrv f).level = s.level := rfl
@[simp] theorem State.modSrv_hbmStacks (f : Srv → Srv) : (s.modSrv f).hbmStacks = s.hbmStacks := rfl
@[simp] theorem State.modSrv_hostReads (f : Srv → Srv) : (s.modSrv f).hostReads = s.hostReads := rfl
@[simp] theorem State.modSrv_stashes (f : Srv → Srv) : (s.modSrv f).stashes = s.stashes := rfl
@[simp] theorem State.modSrv_scrubPos (f : Srv → Srv) : (s.modSrv f).scrubPos = s.scrubPos := rfl
@[simp] theorem State.modSrv_scrubFrom (f : Srv → Srv) : (s.modSrv f).scrubFrom = s.scrubFrom := rfl
@[simp] theorem State.modSrv_nodes (f : Srv → Srv) : (s.modSrv f).nodes = s.nodes := rfl
@[simp] theorem State.modSrv_castMsgs (f : Srv → Srv) : (s.modSrv f).castMsgs = s.castMsgs := rfl
@[simp] theorem State.modSrv_castSt (f : Srv → Srv) : (s.modSrv f).castSt = s.castSt := rfl
@[simp] theorem State.modSrv_castDeferred (f : Srv → Srv) : (s.modSrv f).castDeferred = s.castDeferred := rfl
@[simp] theorem State.modSrv_jobLive (f : Srv → Srv) : (s.modSrv f).jobLive = s.jobLive := rfl
@[simp] theorem State.modSrv_castRelease (f : Srv → Srv) : (s.modSrv f).castRelease = s.castRelease := rfl
@[simp] theorem State.modSrv_bind (f : Srv → Srv) : (s.modSrv f).bind = s.bind := rfl
@[simp] theorem State.modSrv_links (f : Srv → Srv) : (s.modSrv f).links = s.links := rfl
@[simp] theorem State.modSrv_niBufs (f : Srv → Srv) : (s.modSrv f).niBufs = s.niBufs := rfl
@[simp] theorem State.modSrv_rankTables (f : Srv → Srv) : (s.modSrv f).rankTables = s.rankTables := rfl
@[simp] theorem State.modSrv_niOwn (f : Srv → Srv) : (s.modSrv f).niOwn = s.niOwn := rfl
@[simp] theorem State.modSrv_fns (f : Srv → Srv) : (s.modSrv f).fns = s.fns := rfl
@[simp] theorem State.modSrv_hostWaits (f : Srv → Srv) : (s.modSrv f).hostWaits = s.hostWaits := rfl
@[simp] theorem State.modSrv_rowSets (f : Srv → Srv) : (s.modSrv f).rowSets = s.rowSets := rfl
@[simp] theorem State.modSrv_rowOps (f : Srv → Srv) : (s.modSrv f).rowOps = s.rowOps := rfl
@[simp] theorem State.modSrv_crossings (f : Srv → Srv) : (s.modSrv f).crossings = s.crossings := rfl
@[simp] theorem State.modSrv_d2dBuf (f : Srv → Srv) : (s.modSrv f).d2dBuf = s.d2dBuf := rfl
@[simp] theorem State.modSrv_landed (f : Srv → Srv) : (s.modSrv f).landed = s.landed := rfl
@[simp] theorem State.modSrv_setNow (f : Srv → Srv) : (s.modSrv f).setNow = s.setNow := rfl
@[simp] theorem State.modSrv_incNow (f : Srv → Srv) : (s.modSrv f).incNow = s.incNow := rfl
@[simp] theorem State.modSrv_numWas (f : Srv → Srv) : (s.modSrv f).numWas = s.numWas := rfl
@[simp] theorem State.modSrv_skErr (f : Srv → Srv) : (s.modSrv f).skErr = s.skErr := rfl
@[simp] theorem State.modSrv_hostGrants (f : Srv → Srv) : (s.modSrv f).hostGrants = s.hostGrants := rfl
@[simp] theorem State.modSrv_icus (f : Srv → Srv) : (s.modSrv f).icus = s.icus := rfl
@[simp] theorem State.modSrv_doms (f : Srv → Srv) : (s.modSrv f).doms = s.doms := rfl
@[simp] theorem State.modSrv_thms (f : Srv → Srv) : (s.modSrv f).thms = s.thms := rfl
@[simp] theorem State.modSrv_d2ds (f : Srv → Srv) : (s.modSrv f).d2ds = s.d2ds := rfl
@[simp] theorem State.modSrv_boot (f : Srv → Srv) : (s.modSrv f).boot = s.boot := rfl
@[simp] theorem State.modSrv_flt (f : Srv → Srv) : (s.modSrv f).flt = s.flt := rfl
@[simp] theorem State.modSrv_evrs (f : Srv → Srv) : (s.modSrv f).evrs = s.evrs := rfl
@[simp] theorem State.modSrv_harts (f : Srv → Srv) : (s.modSrv f).harts = s.harts := rfl
@[simp] theorem State.modSrv_ccKick (f : Srv → Srv) : (s.modSrv f).ccKick = s.ccKick := rfl
@[simp] theorem State.modSrv_mgmt (f : Srv → Srv) : (s.modSrv f).mgmt = s.mgmt := rfl
@[simp] theorem State.modSrv_sent (f : Srv → Srv) : (s.modSrv f).sent = s.sent := rfl
@[simp] theorem State.modSrv_reply (f : Srv → Srv) : (s.modSrv f).reply = s.reply := rfl

/-! ## `modMgmt`: it changes `mgmt` alone -/

@[simp] theorem State.modMgmt_pending (f : Mgmt → Mgmt) : (s.modMgmt f).pending = s.pending := rfl
@[simp] theorem State.modMgmt_fuses (f : Mgmt → Mgmt) : (s.modMgmt f).fuses = s.fuses := rfl
@[simp] theorem State.modMgmt_wall (f : Mgmt → Mgmt) : (s.modMgmt f).wall = s.wall := rfl
@[simp] theorem State.modMgmt_ptc (f : Mgmt → Mgmt) : (s.modMgmt f).ptc = s.ptc := rfl
@[simp] theorem State.modMgmt_time (f : Mgmt → Mgmt) : (s.modMgmt f).time = s.time := rfl
@[simp] theorem State.modMgmt_clk (f : Mgmt → Mgmt) : (s.modMgmt f).clk = s.clk := rfl
@[simp] theorem State.modMgmt_pins (f : Mgmt → Mgmt) : (s.modMgmt f).pins = s.pins := rfl
@[simp] theorem State.modMgmt_regs (f : Mgmt → Mgmt) : (s.modMgmt f).regs = s.regs := rfl
@[simp] theorem State.modMgmt_cnt (f : Mgmt → Mgmt) : (s.modMgmt f).cnt = s.cnt := rfl
@[simp] theorem State.modMgmt_faultAt (f : Mgmt → Mgmt) : (s.modMgmt f).faultAt = s.faultAt := rfl
@[simp] theorem State.modMgmt_cores (f : Mgmt → Mgmt) : (s.modMgmt f).cores = s.cores := rfl
@[simp] theorem State.modMgmt_shared (f : Mgmt → Mgmt) : (s.modMgmt f).shared = s.shared := rfl
@[simp] theorem State.modMgmt_skein (f : Mgmt → Mgmt) : (s.modMgmt f).skein = s.skein := rfl
@[simp] theorem State.modMgmt_hbm (f : Mgmt → Mgmt) : (s.modMgmt f).hbm = s.hbm := rfl
@[simp] theorem State.modMgmt_stashMem (f : Mgmt → Mgmt) : (s.modMgmt f).stashMem = s.stashMem := rfl
@[simp] theorem State.modMgmt_sram (f : Mgmt → Mgmt) : (s.modMgmt f).sram = s.sram := rfl
@[simp] theorem State.modMgmt_hostMem (f : Mgmt → Mgmt) : (s.modMgmt f).hostMem = s.hostMem := rfl
@[simp] theorem State.modMgmt_bootMem (f : Mgmt → Mgmt) : (s.modMgmt f).bootMem = s.bootMem := rfl
@[simp] theorem State.modMgmt_bbMem (f : Mgmt → Mgmt) : (s.modMgmt f).bbMem = s.bbMem := rfl
@[simp] theorem State.modMgmt_hold (f : Mgmt → Mgmt) : (s.modMgmt f).hold = s.hold := rfl
@[simp] theorem State.modMgmt_nextHold (f : Mgmt → Mgmt) : (s.modMgmt f).nextHold = s.nextHold := rfl
@[simp] theorem State.modMgmt_holdSeq (f : Mgmt → Mgmt) : (s.modMgmt f).holdSeq = s.holdSeq := rfl
@[simp] theorem State.modMgmt_holdLog (f : Mgmt → Mgmt) : (s.modMgmt f).holdLog = s.holdLog := rfl
@[simp] theorem State.modMgmt_windows (f : Mgmt → Mgmt) : (s.modMgmt f).windows = s.windows := rfl
@[simp] theorem State.modMgmt_level (f : Mgmt → Mgmt) : (s.modMgmt f).level = s.level := rfl
@[simp] theorem State.modMgmt_hbmStacks (f : Mgmt → Mgmt) : (s.modMgmt f).hbmStacks = s.hbmStacks := rfl
@[simp] theorem State.modMgmt_hostReads (f : Mgmt → Mgmt) : (s.modMgmt f).hostReads = s.hostReads := rfl
@[simp] theorem State.modMgmt_stashes (f : Mgmt → Mgmt) : (s.modMgmt f).stashes = s.stashes := rfl
@[simp] theorem State.modMgmt_scrubPos (f : Mgmt → Mgmt) : (s.modMgmt f).scrubPos = s.scrubPos := rfl
@[simp] theorem State.modMgmt_scrubFrom (f : Mgmt → Mgmt) : (s.modMgmt f).scrubFrom = s.scrubFrom := rfl
@[simp] theorem State.modMgmt_nodes (f : Mgmt → Mgmt) : (s.modMgmt f).nodes = s.nodes := rfl
@[simp] theorem State.modMgmt_castMsgs (f : Mgmt → Mgmt) : (s.modMgmt f).castMsgs = s.castMsgs := rfl
@[simp] theorem State.modMgmt_castSt (f : Mgmt → Mgmt) : (s.modMgmt f).castSt = s.castSt := rfl
@[simp] theorem State.modMgmt_castDeferred (f : Mgmt → Mgmt) : (s.modMgmt f).castDeferred = s.castDeferred := rfl
@[simp] theorem State.modMgmt_jobLive (f : Mgmt → Mgmt) : (s.modMgmt f).jobLive = s.jobLive := rfl
@[simp] theorem State.modMgmt_castRelease (f : Mgmt → Mgmt) : (s.modMgmt f).castRelease = s.castRelease := rfl
@[simp] theorem State.modMgmt_bind (f : Mgmt → Mgmt) : (s.modMgmt f).bind = s.bind := rfl
@[simp] theorem State.modMgmt_links (f : Mgmt → Mgmt) : (s.modMgmt f).links = s.links := rfl
@[simp] theorem State.modMgmt_niBufs (f : Mgmt → Mgmt) : (s.modMgmt f).niBufs = s.niBufs := rfl
@[simp] theorem State.modMgmt_rankTables (f : Mgmt → Mgmt) : (s.modMgmt f).rankTables = s.rankTables := rfl
@[simp] theorem State.modMgmt_niOwn (f : Mgmt → Mgmt) : (s.modMgmt f).niOwn = s.niOwn := rfl
@[simp] theorem State.modMgmt_srv (f : Mgmt → Mgmt) : (s.modMgmt f).srv = s.srv := rfl
@[simp] theorem State.modMgmt_fns (f : Mgmt → Mgmt) : (s.modMgmt f).fns = s.fns := rfl
@[simp] theorem State.modMgmt_hostWaits (f : Mgmt → Mgmt) : (s.modMgmt f).hostWaits = s.hostWaits := rfl
@[simp] theorem State.modMgmt_rowSets (f : Mgmt → Mgmt) : (s.modMgmt f).rowSets = s.rowSets := rfl
@[simp] theorem State.modMgmt_rowOps (f : Mgmt → Mgmt) : (s.modMgmt f).rowOps = s.rowOps := rfl
@[simp] theorem State.modMgmt_crossings (f : Mgmt → Mgmt) : (s.modMgmt f).crossings = s.crossings := rfl
@[simp] theorem State.modMgmt_d2dBuf (f : Mgmt → Mgmt) : (s.modMgmt f).d2dBuf = s.d2dBuf := rfl
@[simp] theorem State.modMgmt_landed (f : Mgmt → Mgmt) : (s.modMgmt f).landed = s.landed := rfl
@[simp] theorem State.modMgmt_setNow (f : Mgmt → Mgmt) : (s.modMgmt f).setNow = s.setNow := rfl
@[simp] theorem State.modMgmt_incNow (f : Mgmt → Mgmt) : (s.modMgmt f).incNow = s.incNow := rfl
@[simp] theorem State.modMgmt_numWas (f : Mgmt → Mgmt) : (s.modMgmt f).numWas = s.numWas := rfl
@[simp] theorem State.modMgmt_skErr (f : Mgmt → Mgmt) : (s.modMgmt f).skErr = s.skErr := rfl
@[simp] theorem State.modMgmt_hostGrants (f : Mgmt → Mgmt) : (s.modMgmt f).hostGrants = s.hostGrants := rfl
@[simp] theorem State.modMgmt_icus (f : Mgmt → Mgmt) : (s.modMgmt f).icus = s.icus := rfl
@[simp] theorem State.modMgmt_doms (f : Mgmt → Mgmt) : (s.modMgmt f).doms = s.doms := rfl
@[simp] theorem State.modMgmt_thms (f : Mgmt → Mgmt) : (s.modMgmt f).thms = s.thms := rfl
@[simp] theorem State.modMgmt_d2ds (f : Mgmt → Mgmt) : (s.modMgmt f).d2ds = s.d2ds := rfl
@[simp] theorem State.modMgmt_boot (f : Mgmt → Mgmt) : (s.modMgmt f).boot = s.boot := rfl
@[simp] theorem State.modMgmt_flt (f : Mgmt → Mgmt) : (s.modMgmt f).flt = s.flt := rfl
@[simp] theorem State.modMgmt_evrs (f : Mgmt → Mgmt) : (s.modMgmt f).evrs = s.evrs := rfl
@[simp] theorem State.modMgmt_harts (f : Mgmt → Mgmt) : (s.modMgmt f).harts = s.harts := rfl
@[simp] theorem State.modMgmt_ccKick (f : Mgmt → Mgmt) : (s.modMgmt f).ccKick = s.ccKick := rfl
@[simp] theorem State.modMgmt_sent (f : Mgmt → Mgmt) : (s.modMgmt f).sent = s.sent := rfl
@[simp] theorem State.modMgmt_reply (f : Mgmt → Mgmt) : (s.modMgmt f).reply = s.reply := rfl

/-! ## `send`: it changes `sent` alone -/

@[simp] theorem send_pending (m : Msg) : (send s m).pending = s.pending := rfl
@[simp] theorem send_fuses (m : Msg) : (send s m).fuses = s.fuses := rfl
@[simp] theorem send_wall (m : Msg) : (send s m).wall = s.wall := rfl
@[simp] theorem send_ptc (m : Msg) : (send s m).ptc = s.ptc := rfl
@[simp] theorem send_time (m : Msg) : (send s m).time = s.time := rfl
@[simp] theorem send_clk (m : Msg) : (send s m).clk = s.clk := rfl
@[simp] theorem send_pins (m : Msg) : (send s m).pins = s.pins := rfl
@[simp] theorem send_regs (m : Msg) : (send s m).regs = s.regs := rfl
@[simp] theorem send_cnt (m : Msg) : (send s m).cnt = s.cnt := rfl
@[simp] theorem send_faultAt (m : Msg) : (send s m).faultAt = s.faultAt := rfl
@[simp] theorem send_cores (m : Msg) : (send s m).cores = s.cores := rfl
@[simp] theorem send_shared (m : Msg) : (send s m).shared = s.shared := rfl
@[simp] theorem send_skein (m : Msg) : (send s m).skein = s.skein := rfl
@[simp] theorem send_hbm (m : Msg) : (send s m).hbm = s.hbm := rfl
@[simp] theorem send_stashMem (m : Msg) : (send s m).stashMem = s.stashMem := rfl
@[simp] theorem send_sram (m : Msg) : (send s m).sram = s.sram := rfl
@[simp] theorem send_hostMem (m : Msg) : (send s m).hostMem = s.hostMem := rfl
@[simp] theorem send_bootMem (m : Msg) : (send s m).bootMem = s.bootMem := rfl
@[simp] theorem send_bbMem (m : Msg) : (send s m).bbMem = s.bbMem := rfl
@[simp] theorem send_hold (m : Msg) : (send s m).hold = s.hold := rfl
@[simp] theorem send_nextHold (m : Msg) : (send s m).nextHold = s.nextHold := rfl
@[simp] theorem send_holdSeq (m : Msg) : (send s m).holdSeq = s.holdSeq := rfl
@[simp] theorem send_holdLog (m : Msg) : (send s m).holdLog = s.holdLog := rfl
@[simp] theorem send_windows (m : Msg) : (send s m).windows = s.windows := rfl
@[simp] theorem send_level (m : Msg) : (send s m).level = s.level := rfl
@[simp] theorem send_hbmStacks (m : Msg) : (send s m).hbmStacks = s.hbmStacks := rfl
@[simp] theorem send_hostReads (m : Msg) : (send s m).hostReads = s.hostReads := rfl
@[simp] theorem send_stashes (m : Msg) : (send s m).stashes = s.stashes := rfl
@[simp] theorem send_scrubPos (m : Msg) : (send s m).scrubPos = s.scrubPos := rfl
@[simp] theorem send_scrubFrom (m : Msg) : (send s m).scrubFrom = s.scrubFrom := rfl
@[simp] theorem send_nodes (m : Msg) : (send s m).nodes = s.nodes := rfl
@[simp] theorem send_castMsgs (m : Msg) : (send s m).castMsgs = s.castMsgs := rfl
@[simp] theorem send_castSt (m : Msg) : (send s m).castSt = s.castSt := rfl
@[simp] theorem send_castDeferred (m : Msg) : (send s m).castDeferred = s.castDeferred := rfl
@[simp] theorem send_jobLive (m : Msg) : (send s m).jobLive = s.jobLive := rfl
@[simp] theorem send_castRelease (m : Msg) : (send s m).castRelease = s.castRelease := rfl
@[simp] theorem send_bind (m : Msg) : (send s m).bind = s.bind := rfl
@[simp] theorem send_links (m : Msg) : (send s m).links = s.links := rfl
@[simp] theorem send_niBufs (m : Msg) : (send s m).niBufs = s.niBufs := rfl
@[simp] theorem send_rankTables (m : Msg) : (send s m).rankTables = s.rankTables := rfl
@[simp] theorem send_niOwn (m : Msg) : (send s m).niOwn = s.niOwn := rfl
@[simp] theorem send_srv (m : Msg) : (send s m).srv = s.srv := rfl
@[simp] theorem send_fns (m : Msg) : (send s m).fns = s.fns := rfl
@[simp] theorem send_hostWaits (m : Msg) : (send s m).hostWaits = s.hostWaits := rfl
@[simp] theorem send_rowSets (m : Msg) : (send s m).rowSets = s.rowSets := rfl
@[simp] theorem send_rowOps (m : Msg) : (send s m).rowOps = s.rowOps := rfl
@[simp] theorem send_crossings (m : Msg) : (send s m).crossings = s.crossings := rfl
@[simp] theorem send_d2dBuf (m : Msg) : (send s m).d2dBuf = s.d2dBuf := rfl
@[simp] theorem send_landed (m : Msg) : (send s m).landed = s.landed := rfl
@[simp] theorem send_setNow (m : Msg) : (send s m).setNow = s.setNow := rfl
@[simp] theorem send_incNow (m : Msg) : (send s m).incNow = s.incNow := rfl
@[simp] theorem send_numWas (m : Msg) : (send s m).numWas = s.numWas := rfl
@[simp] theorem send_skErr (m : Msg) : (send s m).skErr = s.skErr := rfl
@[simp] theorem send_hostGrants (m : Msg) : (send s m).hostGrants = s.hostGrants := rfl
@[simp] theorem send_icus (m : Msg) : (send s m).icus = s.icus := rfl
@[simp] theorem send_doms (m : Msg) : (send s m).doms = s.doms := rfl
@[simp] theorem send_thms (m : Msg) : (send s m).thms = s.thms := rfl
@[simp] theorem send_d2ds (m : Msg) : (send s m).d2ds = s.d2ds := rfl
@[simp] theorem send_boot (m : Msg) : (send s m).boot = s.boot := rfl
@[simp] theorem send_flt (m : Msg) : (send s m).flt = s.flt := rfl
@[simp] theorem send_evrs (m : Msg) : (send s m).evrs = s.evrs := rfl
@[simp] theorem send_harts (m : Msg) : (send s m).harts = s.harts := rfl
@[simp] theorem send_ccKick (m : Msg) : (send s m).ccKick = s.ccKick := rfl
@[simp] theorem send_mgmt (m : Msg) : (send s m).mgmt = s.mgmt := rfl
@[simp] theorem send_reply (m : Msg) : (send s m).reply = s.reply := rfl

/-! ## `counterOp`: it changes `rowOps` alone -/

@[simp] theorem counterOp_pending (o : RowOp) : (counterOp s o).pending = s.pending := rfl
@[simp] theorem counterOp_fuses (o : RowOp) : (counterOp s o).fuses = s.fuses := rfl
@[simp] theorem counterOp_wall (o : RowOp) : (counterOp s o).wall = s.wall := rfl
@[simp] theorem counterOp_ptc (o : RowOp) : (counterOp s o).ptc = s.ptc := rfl
@[simp] theorem counterOp_time (o : RowOp) : (counterOp s o).time = s.time := rfl
@[simp] theorem counterOp_clk (o : RowOp) : (counterOp s o).clk = s.clk := rfl
@[simp] theorem counterOp_pins (o : RowOp) : (counterOp s o).pins = s.pins := rfl
@[simp] theorem counterOp_regs (o : RowOp) : (counterOp s o).regs = s.regs := rfl
@[simp] theorem counterOp_cnt (o : RowOp) : (counterOp s o).cnt = s.cnt := rfl
@[simp] theorem counterOp_faultAt (o : RowOp) : (counterOp s o).faultAt = s.faultAt := rfl
@[simp] theorem counterOp_cores (o : RowOp) : (counterOp s o).cores = s.cores := rfl
@[simp] theorem counterOp_shared (o : RowOp) : (counterOp s o).shared = s.shared := rfl
@[simp] theorem counterOp_skein (o : RowOp) : (counterOp s o).skein = s.skein := rfl
@[simp] theorem counterOp_hbm (o : RowOp) : (counterOp s o).hbm = s.hbm := rfl
@[simp] theorem counterOp_stashMem (o : RowOp) : (counterOp s o).stashMem = s.stashMem := rfl
@[simp] theorem counterOp_sram (o : RowOp) : (counterOp s o).sram = s.sram := rfl
@[simp] theorem counterOp_hostMem (o : RowOp) : (counterOp s o).hostMem = s.hostMem := rfl
@[simp] theorem counterOp_bootMem (o : RowOp) : (counterOp s o).bootMem = s.bootMem := rfl
@[simp] theorem counterOp_bbMem (o : RowOp) : (counterOp s o).bbMem = s.bbMem := rfl
@[simp] theorem counterOp_hold (o : RowOp) : (counterOp s o).hold = s.hold := rfl
@[simp] theorem counterOp_nextHold (o : RowOp) : (counterOp s o).nextHold = s.nextHold := rfl
@[simp] theorem counterOp_holdSeq (o : RowOp) : (counterOp s o).holdSeq = s.holdSeq := rfl
@[simp] theorem counterOp_holdLog (o : RowOp) : (counterOp s o).holdLog = s.holdLog := rfl
@[simp] theorem counterOp_windows (o : RowOp) : (counterOp s o).windows = s.windows := rfl
@[simp] theorem counterOp_level (o : RowOp) : (counterOp s o).level = s.level := rfl
@[simp] theorem counterOp_hbmStacks (o : RowOp) : (counterOp s o).hbmStacks = s.hbmStacks := rfl
@[simp] theorem counterOp_hostReads (o : RowOp) : (counterOp s o).hostReads = s.hostReads := rfl
@[simp] theorem counterOp_stashes (o : RowOp) : (counterOp s o).stashes = s.stashes := rfl
@[simp] theorem counterOp_scrubPos (o : RowOp) : (counterOp s o).scrubPos = s.scrubPos := rfl
@[simp] theorem counterOp_scrubFrom (o : RowOp) : (counterOp s o).scrubFrom = s.scrubFrom := rfl
@[simp] theorem counterOp_nodes (o : RowOp) : (counterOp s o).nodes = s.nodes := rfl
@[simp] theorem counterOp_castMsgs (o : RowOp) : (counterOp s o).castMsgs = s.castMsgs := rfl
@[simp] theorem counterOp_castSt (o : RowOp) : (counterOp s o).castSt = s.castSt := rfl
@[simp] theorem counterOp_castDeferred (o : RowOp) : (counterOp s o).castDeferred = s.castDeferred := rfl
@[simp] theorem counterOp_jobLive (o : RowOp) : (counterOp s o).jobLive = s.jobLive := rfl
@[simp] theorem counterOp_castRelease (o : RowOp) : (counterOp s o).castRelease = s.castRelease := rfl
@[simp] theorem counterOp_bind (o : RowOp) : (counterOp s o).bind = s.bind := rfl
@[simp] theorem counterOp_links (o : RowOp) : (counterOp s o).links = s.links := rfl
@[simp] theorem counterOp_niBufs (o : RowOp) : (counterOp s o).niBufs = s.niBufs := rfl
@[simp] theorem counterOp_rankTables (o : RowOp) : (counterOp s o).rankTables = s.rankTables := rfl
@[simp] theorem counterOp_niOwn (o : RowOp) : (counterOp s o).niOwn = s.niOwn := rfl
@[simp] theorem counterOp_srv (o : RowOp) : (counterOp s o).srv = s.srv := rfl
@[simp] theorem counterOp_fns (o : RowOp) : (counterOp s o).fns = s.fns := rfl
@[simp] theorem counterOp_hostWaits (o : RowOp) : (counterOp s o).hostWaits = s.hostWaits := rfl
@[simp] theorem counterOp_rowSets (o : RowOp) : (counterOp s o).rowSets = s.rowSets := rfl
@[simp] theorem counterOp_crossings (o : RowOp) : (counterOp s o).crossings = s.crossings := rfl
@[simp] theorem counterOp_d2dBuf (o : RowOp) : (counterOp s o).d2dBuf = s.d2dBuf := rfl
@[simp] theorem counterOp_landed (o : RowOp) : (counterOp s o).landed = s.landed := rfl
@[simp] theorem counterOp_setNow (o : RowOp) : (counterOp s o).setNow = s.setNow := rfl
@[simp] theorem counterOp_incNow (o : RowOp) : (counterOp s o).incNow = s.incNow := rfl
@[simp] theorem counterOp_numWas (o : RowOp) : (counterOp s o).numWas = s.numWas := rfl
@[simp] theorem counterOp_skErr (o : RowOp) : (counterOp s o).skErr = s.skErr := rfl
@[simp] theorem counterOp_hostGrants (o : RowOp) : (counterOp s o).hostGrants = s.hostGrants := rfl
@[simp] theorem counterOp_icus (o : RowOp) : (counterOp s o).icus = s.icus := rfl
@[simp] theorem counterOp_doms (o : RowOp) : (counterOp s o).doms = s.doms := rfl
@[simp] theorem counterOp_thms (o : RowOp) : (counterOp s o).thms = s.thms := rfl
@[simp] theorem counterOp_d2ds (o : RowOp) : (counterOp s o).d2ds = s.d2ds := rfl
@[simp] theorem counterOp_boot (o : RowOp) : (counterOp s o).boot = s.boot := rfl
@[simp] theorem counterOp_flt (o : RowOp) : (counterOp s o).flt = s.flt := rfl
@[simp] theorem counterOp_evrs (o : RowOp) : (counterOp s o).evrs = s.evrs := rfl
@[simp] theorem counterOp_harts (o : RowOp) : (counterOp s o).harts = s.harts := rfl
@[simp] theorem counterOp_ccKick (o : RowOp) : (counterOp s o).ccKick = s.ccKick := rfl
@[simp] theorem counterOp_mgmt (o : RowOp) : (counterOp s o).mgmt = s.mgmt := rfl
@[simp] theorem counterOp_sent (o : RowOp) : (counterOp s o).sent = s.sent := rfl
@[simp] theorem counterOp_reply (o : RowOp) : (counterOp s o).reply = s.reply := rfl

/-! ## Updates made of those -/

@[simp] theorem State.setRegN_eq (b : Blk) (o v : Nat) : s.setRegN b o v = s.setReg b o (BitVec.ofNat 32 v) := rfl

@[simp] theorem State.setReg64_eq (b : Blk) (o v : Nat) :
    s.setReg64 b o v = (s.setReg b o (BitVec.ofNat 32 (v % 2 ^ 32))).setReg b (o + 4) (BitVec.ofNat 32 (v / 2 ^ 32)) := rfl

@[simp] theorem State.incReg_eq (b : Blk) (o n : Nat) : s.incReg b o n = (s.noteInc b o n).setReg b o (satInc (s.reg b o) n) := rfl

@[simp] theorem State.countNoEffect_eq (b : Blk) : s.countNoEffect b = s.count b 2 := rfl

@[simp] theorem State.modCore_eq (k : Nat) (f : Core → Core) : s.modCore k f = s.setCore k (f (s.core k)) := rfl

@[simp] theorem State.modStream_eq (k : Nat) (f : Stream → Stream) :
    s.modStream k f = s.setCore k { s.core k with stream := f (s.core k).stream } := rfl

@[simp] theorem State.setQp_eq (q : Nat) (x : Option Qp) : s.setQp q x = s.modSrv fun r => { r with qps := FMap.put none r.qps q x } := rfl

@[simp] theorem State.setPool_eq (n : Nat) (x : Pool) : s.setPool n x = s.modSrv fun r => { r with pools := FMap.put {} r.pools n x } := rfl

@[simp] theorem State.setPrefix_eq (n : Nat) (x : Prefix) :
    s.setPrefix n x = s.modSrv fun r => { r with prefixes := FMap.put {} r.prefixes n x } := rfl

@[simp] theorem State.setMotif_eq (n : Nat) (x : Motif) :
    s.setMotif n x = s.modSrv fun r => { r with motifs := FMap.put {} r.motifs n x } := rfl

/-! ## What is read after a write -/

@[simp] theorem State.core_setCore (k j : Nat) (x : Core) : (s.setCore k x).core j = if j = k then x else s.core j :=
  FMap.look_put _ _ _ _ _

@[simp] theorem State.link_setLink (l j : Nat) (x : Link) : (s.setLink l x).link j = if j = l then x else s.link j :=
  FMap.look_put _ _ _ _ _

@[simp] theorem State.node_setNode (n j : Nat) (x : Node) : (s.setNode n x).node j = if j = n then x else s.node j :=
  FMap.look_put _ _ _ _ _

@[simp] theorem State.thm_setThm (p j : Nat) (x : Thm) : (s.setThm p x).thm j = if j = p then x else s.thm j :=
  FMap.look_put _ _ _ _ _

@[simp] theorem State.icu_setIcu (p j : Nat) (x : Icu) : (s.setIcu p x).icu j = if j = p then x else s.icu j :=
  FMap.look_put _ _ _ _ _

@[simp] theorem State.stash_setStash (p j : Nat) (x : Stash) : (s.setStash p x).stash j = if j = p then x else s.stash j :=
  FMap.look_put _ _ _ _ _

@[simp] theorem State.hbmStack_setHbmStack (p n q m : Nat) (x : HbmStack) :
    (s.setHbmStack p n x).hbmStack q m = if 3 * q + m = 3 * p + n then x else s.hbmStack q m := FMap.look_put _ _ _ _ _

@[simp] theorem State.d2d_setD2d (p n q m : Nat) (x : D2d) :
    (s.setD2d p n x).d2d q m = if 3 * q + m = 3 * p + n then x else s.d2d q m := FMap.look_put _ _ _ _ _

@[simp] theorem State.dom_setDom (p n : Nat) (x : Dom) : (s.setDom p n x).dom p n = x := by
  unfold State.dom State.setDom
  exact (FMap.look_put _ _ _ _ _).trans (if_pos rfl)

/-- The other domains of the panels keep their state. -/
theorem State.dom_setDom_of_ne (p n q m : Nat) (x : Dom) (h : 12 * q + m ≠ 12 * p + n) :
    (s.setDom p n x).dom q m = s.dom q m := by
  have other : ∀ d e : Dom, FMap.look d (FMap.put e s.doms (12 * p + n) x) (12 * q + m) = FMap.look d s.doms (12 * q + m) := by
    intro d e
    unfold FMap.put
    split
    · exact (FMap.look_without _ _ _ _).trans (if_neg h)
    · exact (FMap.look_place _ _ _ _ _).trans (if_neg h)
  exact other _ _

/-- A register reads as the word stored in it. -/
@[simp] theorem State.reg_setReg (b : Blk) (o : Nat) (v : Word) : (s.setReg b o v).reg b o = v :=
  (FMap.look_put _ _ _ _ _).trans (if_pos rfl)

/-- A register at another address is not touched. -/
theorem State.reg_setReg_of_ne (b c : Blk) (o n : Nat) (v : Word) (h : c.base + n ≠ b.base + o) :
    (s.setReg b o v).reg c n = s.reg c n := by
  have other : ∀ d e : Word, FMap.look d (FMap.put e s.regs (b.base + o) v) (c.base + n) = FMap.look d s.regs (c.base + n) := by
    intro d e
    unfold FMap.put
    split
    · exact (FMap.look_without _ _ _ _).trans (if_neg h)
    · exact (FMap.look_place _ _ _ _ _).trans (if_neg h)
  exact other _ _

/-- Registers of one block at different offsets are different registers. -/
theorem State.reg_setReg_same (b : Blk) (o n : Nat) (v : Word) (h : n ≠ o) : (s.setReg b o v).reg b n = s.reg b n :=
  State.reg_setReg_of_ne s b b o n v (by omega)

@[simp] theorem State.qp_modSrv (f : Srv → Srv) (q : Nat) : (s.modSrv f).qp q = FMap.look none (f s.srv).qps q := rfl

@[simp] theorem State.ctx_modSrv (f : Srv → Srv) (c : Nat) : (s.modSrv f).ctx c = FMap.look none (f s.srv).ctxs c := rfl

@[simp] theorem State.modSrv_srv (f : Srv → Srv) : (s.modSrv f).srv = f s.srv := rfl

@[simp] theorem State.modMgmt_mgmt (f : Mgmt → Mgmt) : (s.modMgmt f).mgmt = f s.mgmt := rfl

@[simp] theorem send_sent (m : Msg) : (send s m).sent = m :: s.sent := rfl

/-! ## Frames carried through folds and branches -/

/-- A reading that every step of a fold keeps is kept by the fold. -/
theorem foldl_keeps {α β γ : Type} (get : β → γ) (g : β → α → β) (h : ∀ x a, get (g x a) = get x) (l : List α) (x : β) :
    get (l.foldl g x) = get x := by
  induction l generalizing x with
  | nil => rfl
  | cons a l ih => rw [List.foldl_cons, ih, h]

/-- A property that every step of a fold keeps is kept by the fold. -/
theorem foldl_keeps_prop {α β : Type} (P : β → Prop) (g : β → α → β) (h : ∀ x a, P x → P (g x a)) (l : List α) (x : β) (hx : P x) :
    P (l.foldl g x) := by
  induction l generalizing x with
  | nil => exact hx
  | cons a l ih => exact ih _ (h x a hx)

/-! ## Reset -/

theorem reset_memoriesCanonical : MemoriesCanonical State.reset := by
  unfold MemoriesCanonical
  decide

end Sys2Proof.Machine
end

