-- ==== Sys2Proof/Laws/Ops.lean ====
section
/-! SUPPORT. One law for each shared operation of Machine/Ops.lean. A law says what an operation leaves: it leaves a state from which the
fields that it may write have been blanked out, and every other field is then read off with `congrArg`. -/

namespace Sys2Proof.Machine

variable (s : State) (b : Blk)

/-! ## What a family of operations leaves -/

/-- The state without its registers and what is kept beside them: counts, fault records, triggers, stop requests. -/
def State.sansRegs (s : State) : State :=
  { s with regs := [], cnt := [], evrs := [], faultAt := [], flt := {}, niOwn := [], setNow := [], incNow := [] }

/-- The same without the holds. -/
def State.sansHolds (s : State) : State := { s.sansRegs with hold := none, nextHold := none }

/-- The same without the cores and the shared row counters. -/
def State.sansCounters (s : State) : State := { s.sansRegs with cores := [], shared := [] }

/-- The state without the functions' interrupt side and the messages. -/
def State.sansMessages (s : State) : State := { s with fns := [], sent := [] }

/-! ## Registers -/

@[simp] theorem sansRegs_count (ix : Nat) : (s.count b ix).sansRegs = s.sansRegs := rfl

@[simp] theorem sansRegs_setReg (off : Nat) (w : Word) : (s.setReg b off w).sansRegs = s.sansRegs := rfl

@[simp] theorem sansRegs_setRegN (off v : Nat) : (s.setRegN b off v).sansRegs = s.sansRegs := rfl

@[simp] theorem sansRegs_setReg64 (off v : Nat) : (s.setReg64 b off v).sansRegs = s.sansRegs := rfl

@[simp] theorem sansRegs_evrs (x : FMap Evr) : ({ s with evrs := x } : State).sansRegs = s.sansRegs := rfl

@[simp] theorem sansRegs_faultAt (x : FMap Nat) : ({ s with faultAt := x } : State).sansRegs = s.sansRegs := rfl

@[simp] theorem sansRegs_niOwn (x : FMap Word) : ({ s with niOwn := x } : State).sansRegs = s.sansRegs := rfl

@[simp] theorem sansRegs_noteSet (off v : Nat) : (s.noteSet b off v).sansRegs = s.sansRegs := rfl

@[simp] theorem sansRegs_noteInc (off n : Nat) : (s.noteInc b off n).sansRegs = s.sansRegs := rfl

@[simp] theorem sansRegs_stickyBit (k base : Nat) : (stickyBit s k base).sansRegs = s.sansRegs := rfl

@[simp] theorem sansRegs_raiseStop (n : Nat) : (raiseStop s b n).sansRegs = s.sansRegs := rfl

@[simp] theorem sansRegs_writeReg (off : Nat) (w : Word) : (s.writeReg b off w).sansRegs = s.sansRegs := by
  unfold State.writeReg
  extract_lets fs s1
  split <;> rfl

/-- An effect on a block that can be written is that effect. -/
theorem onBlock_of_writable (f : State → State) (h : writable s b = true) : onBlock s b f = f s := if_pos h

/-- An effect on a block that cannot be written is none. -/
theorem onBlock_of_not_writable (f : State → State) (h : writable s b = false) : onBlock s b f = s := by
  unfold onBlock
  rw [h]
  rfl

/-! ## Triggers, errors and causes -/

@[simp] theorem sansRegs_trigger (r bit typ blkBit inst : Nat) : (trigger s r bit typ blkBit inst).sansRegs = s.sansRegs := by
  unfold trigger
  extract_lets c e
  split
  · rfl
  · split <;> rfl

@[simp] theorem sansRegs_triggerBlk (bit blkBit : Nat) : (triggerBlk s b bit blkBit).sansRegs = s.sansRegs := by
  unfold triggerBlk
  split
  · rfl
  · exact sansRegs_trigger _ _ _ _ _ _

@[simp] theorem sansRegs_raiseErr (n : Nat) (own : Bool) : (raiseErr s b n own).sansRegs = s.sansRegs := by
  unfold raiseErr
  extract_lets old fresh s0 s1 u s2 s3
  clear_value old
  have h0 : s0.sansRegs = s.sansRegs := by unfold s0; split <;> rfl
  clear_value s0
  have h1 : s1.sansRegs = s0.sansRegs := by unfold s1; rw [sansRegs_setRegN, sansRegs_noteSet]
  clear_value s1
  have h2 : s2.sansRegs = s1.sansRegs := by
    unfold s2
    split
    · rw [sansRegs_faultAt, sansRegs_setRegN]
    · rfl
  clear_value s2
  have h3 : s3.sansRegs = s2.sansRegs := by
    unfold s3
    split
    · split
      · rw [sansRegs_niOwn]
      · rfl
    · rfl
  rw [sansRegs_triggerBlk, sansRegs_count, h3, h2, h1, h0]

@[simp] theorem sansRegs_raiseIrq (n : Nat) : (raiseIrq s b n).sansRegs = s.sansRegs := by
  unfold raiseIrq
  rw [sansRegs_triggerBlk, sansRegs_count, sansRegs_setRegN, sansRegs_noteSet]

/-- A fault record whose writer touches registers only. -/
theorem sansRegs_recordFirst (off key oldKey : Nat) (write : State → State) (hw : ∀ x, (write x).sansRegs = x.sansRegs) :
    (recordFirst s b off key oldKey write).sansRegs = s.sansRegs := by
  unfold recordFirst
  split
  · exact (sansRegs_faultAt _ _).trans (hw s)
  · rfl

@[simp] theorem sansRegs_panelFault (code core extra : Nat) (info : Option Nat) :
    (panelFault s b code core extra info).sansRegs = s.sansRegs := by
  unfold panelFault
  rw [sansRegs_raiseErr]
  refine sansRegs_recordFirst _ _ _ _ _ _ fun x => ?_
  cases info with
  | none => rw [sansRegs_setReg64, sansRegs_setRegN]
  | some i => rw [sansRegs_setRegN, sansRegs_setReg64, sansRegs_setRegN]

@[simp] theorem sansRegs_numFault (k code : Nat) : (numFault s k code).sansRegs = s.sansRegs := sansRegs_panelFault _ _ _ _ _ _

/-! ## Hold requests -/

@[simp] theorem sansHolds_raiseHold (cause panel : Nat) (other : Bool) (unit : Nat) (items : List LateItem) :
    (raiseHold s cause panel other unit items).sansHolds = s.sansHolds := by
  unfold raiseHold
  split
  · rfl
  · extract_lets req s1 fresh
    split
    · rfl
    · split
      · extract_lets s2
        split
        · have h := sansRegs_raiseIrq s2 .hold 0
          exact congrArg (fun x : State => { x with hold := none, nextHold := none }) h
        · rfl
      · rfl

/-- A stopped package discards a hold request (R96). -/
theorem raiseHold_of_stopped (cause panel : Nat) (other : Bool) (unit : Nat) (items : List LateItem) (h : s.flt.stopped = true) :
    raiseHold s cause panel other unit items = s := by
  unfold raiseHold
  rw [if_pos h]

/-! ## Row counters -/

@[simp] theorem sansCounters_setCounter (k ctr : Nat) (v : RowCtr) : (setCounter s k ctr v).sansCounters = s.sansCounters := by
  unfold setCounter
  split <;> rfl

/-- An operation writes its counter, and the record of its fault. -/
@[simp] theorem sansCounters_applyRowOp (o : RowOp) : (applyRowOp s o).sansCounters = s.sansCounters := by
  unfold applyRowOp
  extract_lets c r res code s0
  have h0 : s0.sansCounters = s.sansCounters := sansCounters_setCounter _ _ _ _
  split
  · exact h0
  · clear_value s0
    refine Eq.trans (congrArg (fun x : State => { x with cores := [], shared := [] }) ?_) h0
    rw [sansRegs_raiseErr]
    exact sansRegs_recordFirst _ _ _ _ _ _ fun x => by rw [sansRegs_setReg64, sansRegs_setReg, sansRegs_setRegN]

/-! ## Interrupt conditions -/

@[simp] theorem sansMessages_messageDue (fn : Nat) : (messageDue s fn).sansMessages = s.sansMessages := by
  unfold messageDue
  extract_lets f
  split
  · rfl
  · split
    · rfl
    · split <;> rfl

@[simp] theorem sansMessages_settleFn (fn : Nat) : (settleFn s fn).sansMessages = s.sansMessages := by
  unfold settleFn
  extract_lets f now s1
  split
  · rfl
  · split
    · exact sansMessages_messageDue _ _
    · rfl

/-- Following the interrupt conditions writes the functions and the messages only. -/
@[simp] theorem sansMessages_settle : (settle s).sansMessages = s.sansMessages :=
  foldl_keeps State.sansMessages settleFn (fun x fn => sansMessages_settleFn x fn) (List.range 65) s

/-! ## The wrapper of every meaning -/

/-- In a package that runs, a command's meaning is its effect with the interrupt conditions followed. -/
theorem act_of_live (f : State → State) (h : Live s = true) : act s f = .next (settle (f s)) := by
  simp only [Live, Bool.and_eq_true, Bool.not_eq_eq_eq_not, Bool.not_true] at h
  simp [act, h.1.1, h.1.2, h.2]

/-- Under PERST_N or in the manufacturing test a command does nothing. -/
theorem act_of_held (f : State → State) (h : s.pins.perst = true ∨ s.pins.straps.test = true) : act s f = .next s := by
  unfold act
  rw [if_pos (by simpa using h)]

/-- A meaning that answers a next state leaves the state as it is, or has its effect. -/
theorem act_next (f : State → State) {t : State} (h : act s f = .next t) : t = s ∨ Live s = true ∧ t = settle (f s) := by
  unfold act at h
  split at h
  · injection h with h
    exact .inl h.symm
  · split at h
    · cases h
    · rename_i h1 h2
      injection h with h
      refine .inr ⟨?_, h.symm⟩
      simp only [Bool.or_eq_true, not_or, Bool.not_eq_true] at h1 h2
      simp [Live, h1.1, h1.2, h2]

/-- A meaning never answers with a refusal. -/
theorem act_ne_refused (f : State → State) (r : Refusal) : act s f ≠ .refused r := by
  unfold act
  split
  · simp
  · split <;> simp

/-- A meaning stops only where a rail has left its range. -/
theorem act_fault (f : State → State) {x : Fault} (h : act s f = .fault x) : s.pins.spoiled = true ∧ x = .supplyNoGuarantee := by
  unfold act at h
  split at h
  · cases h
  · split at h
    · rename_i h2
      injection h with h
      exact ⟨h2, h.symm⟩
    · cases h

end Sys2Proof.Machine
end

