-- ==== Sys2Proof/Laws/Issue.lean ====
section
/-! SUPPORT. The issue of a descriptor: when it happens, what its effect is applied to, and what issuing itself writes. -/

namespace Sys2Proof.Machine

variable (s : State)

/-- A command on a core that exists has its effect there. -/
theorem onCore_of_coreOf (c : CoreId) (k : Nat) (f : Nat → State → State) (h : coreOf s c = some k) : onCore s c f = f k s := by
  unfold onCore
  rw [h]

/-- With the descriptor of this operation in front and its time come, `issue` is the operation's effect after the issue's own. -/
theorem issue_of_ready (eng : Nat) (opcs : List Nat) (f : Nat → Checked → State → State) (k : Nat) (q : Checked)
    (hq : (s.core k).stream.checked.head? = some q) (he : dEng q.desc = eng) (ho : dOpc q.desc ∈ opcs) (hm : mayIssue s k q = true) :
    issue eng opcs f k s = f k q (noteIssue s k q) := by
  obtain ⟨rest, hc⟩ := List.head?_eq_some_iff.1 hq
  unfold issue
  rw [hc]
  simp [he, ho, hm]

/-- A row whose descriptor issues completes with the operation's effect. -/
theorem act_issue {c : CoreId} {k eng : Nat} {q : Checked} {opcs : List Nat} (f : Nat → Checked → State → State)
    (h : Issues s c k q eng opcs) :
    act s (fun s => onCore s c (issue eng opcs f)) = .next (settle (f k q (noteIssue s k q))) := by
  obtain ⟨hl, hc, hq, he, ho, hm⟩ := h
  rw [act_of_live s _ hl, onCore_of_coreOf s c k _ hc, issue_of_ready s eng opcs f k q hq he ho hm]

/-- The check against the test windows writes no more than the record of a conflict. -/
@[simp] theorem sansRegs_istCheck (k : Nat) : (istCheck s k).sansRegs = s.sansRegs := by
  unfold istCheck
  extract_lets inside
  split
  · unfold istFault
    rw [sansRegs_raiseErr]
    exact sansRegs_recordFirst _ _ _ _ _ _ fun x => sansRegs_setRegN _ _ _ _
  · rfl

/-- Without an open test window nothing is checked. -/
theorem istCheck_of_quiet (k : Nat) (h : FMap.look [] s.flt.istOpen k = []) : istCheck s k = s := by
  unfold istCheck
  simp [h]

@[simp] theorem core_istCheck (k j : Nat) : (istCheck s k).core j = s.core j := by
  have h : (istCheck s k).cores = s.cores := (congrArg State.cores (sansRegs_istCheck s k) :)
  unfold State.core
  rw [h]

/-- Issuing is the check against the test windows and the core's own change. -/
theorem noteIssue_eq (k : Nat) (q : Checked) : noteIssue s k q = (istCheck s k).setCore k (issuedCore s k q) := by
  have hp : (istCheck s k).ptc = s.ptc := (congrArg State.ptc (sansRegs_istCheck s k) :)
  have hc := core_istCheck s k k
  unfold noteIssue
  generalize istCheck s k = t at hp hc
  unfold issuedCore
  rw [← hc, ← hp]
  rfl

end Sys2Proof.Machine
end

