-- ==== Sys2Proof/Tests/Slice0.lean ====
section
/-! SUPPORT. Tests: the small states they use, ill-formed commands that WellFormed refuses, the table's words, the worked examples of the
spec, and for each statement states and operands that meet the premises of each of its clauses together. -/

namespace Sys2Proof.Tests

set_option Elab.async false

open Sys2Proof.Machine

/-! ## States to try the machine on -/

/-- Firmware is READY and every domain of panels 0 and 1 is ON. -/
def up : State := { State.reset with
  doms := ((List.range 11).map fun n => (n, ({ st := .on } : Dom))) ++ ((List.range 11).map fun n => (12 + n, ({ st := .on } : Dom)))
  boot := { stage := .ready } }

/-- Core 0 of panel 0. -/
def c0 : CoreId := ⟨0, 0⟩

/-- `up` with core 0 of panel 0 as given. -/
def core (x : Core) : State := { up with cores := [(0, x)] }

/-- A descriptor from its engine, operation, tag and the words that are not 0. -/
def desc (eng opc tag : Nat) (ws : List (Nat × Nat)) : Desc :=
  (List.range 16).map fun n => BitVec.ofNat 32 (if n = 0 then tag * 2 ^ 16 + eng * 2 ^ 8 + opc else FMap.look 0 ws n)

/-- The words of operand field k: USE, format, space, BASE and EXTENT. -/
def field (k use fmt space base extent : Nat) : List (Nat × Nat) :=
  [(4 + 4 * k, base), (5 + 4 * k, use * 2 ^ 30 + fmt * 2 ^ 20 + space * 2 ^ 16), (6 + 4 * k, extent)]

/-- A checked descriptor of a timed segment at tick 0. -/
def due (d : Desc) : Checked :=
  { id := 1, seg := 0, desc := d, addr := 0x1000, tick := 0, timed := true, eff := (List.range 3).map fun k => dw d (4 + 4 * k)
    i0 := 0, i1 := 0, n0 := 0, depth := 0 }

/-- Core 0 runs a timed segment and its front checked descriptor is due. -/
def issuing (d : Desc) : State := core { stream := { st := .running, tr := { timed := true }, checked := [due d] } }

/-- `s` with the bytes stored in the skein of core 0. -/
def withSkein (s : State) (a : Nat) (bs : List Byte) : State := { s with skein := Mem.store s.skein (skAddr 0 a) bs }

/-- Little-endian words. -/
def words (l : List Nat) : List Byte := l.flatMap (leBytes 4)

/-- A hold with one request. -/
def holdOf (items : List (LateItem × Bool)) (frozen : Bool) : Hold :=
  { reqs := [⟨6, 0, true, 2, 0, 0, items⟩], freezeAt := 24, frozen := frozen }

/-- 24 pt after a request. -/
def holding (items : List (LateItem × Bool)) (frozen : Bool) : State := { up with ptc := 24, wall := 24, hold := some (holdOf items frozen) }

/-- A table of topology for this package at device address 0, with `n` entries. -/
def topology (n : Nat) (entries : List Byte) : State :=
  { up with hbm := Mem.store [] 0 (leBytes 4 0x4F504F54 ++ leBytes 4 1 ++ leBytes 4 n ++ leBytes 4 0 ++ leBytes 8 32 ++ leBytes 8 0 ++ entries) }

/-- An entry that enables link `l` for the peer `id`, with a grace of 1 ms and an acknowledgement time of 2 us. -/
def linkEntry (l id : Nat) : List Byte := [BitVec.ofNat 8 l, 1, 1, 2] ++ leBytes 4 0 ++ leBytes 8 id

/-- `s` with stack 0 of panel 0 PLANNED. -/
def withPlanned (s : State) : State := s.setRegN (.hbm 0 0) 0x40 1

/-- A descriptor fetched from 0x1000. -/
def headOfWindow (d : Desc) : Fetched := { addr := 0x1000, desc := d, gran := 1, tick := some 0 }

/-- Core 0 with a window at its front descriptor, in a timed segment. -/
def atHead (d : Desc) : Stream :=
  { st := .running, tr := { timed := true, pos := some 0x1000, fetch := { window := [headOfWindow d] } } }

/-- The words of a list of operand fields and of others. -/
def three (a b c : List (Nat × Nat)) (ws : List (Nat × Nat)) : List (Nat × Nat) := a ++ b ++ c ++ ws

/-- A lane-wise vector descriptor of one beat: sources at 0x100 and 0x200, result at 0x300. -/
def lane (opc fmt : Nat) : Desc := desc 2 opc 7 (three (field 0 1 fmt 0 0x100 1) (field 1 1 fmt 0 0x200 1) (field 2 2 fmt 0 0x300 1) [])

/-- A vector descriptor of one source of `n` beats and one result of one beat. -/
def unary (opc fmt n : Nat) (ws : List (Nat × Nat)) : Desc := desc 2 opc 0 (three (field 0 1 fmt 0 0x100 n) (field 1 2 fmt 0 0x300 1) [] ws)

/-- Core 0 about to issue `d`, with words from 0x100 and from 0x200 in its skein. -/
def issuingOn (d : Desc) (a b : List Nat) : State := withSkein (withSkein (issuing d) 0x100 (words a)) 0x200 (words b)

/-- Core 0 about to check the front of `st`, every engine enabled; region 0 is the whole skein, of format `fmt`. -/
def checking (fmt : Nat) (st : Stream) : State :=
  { (core { stream := st, regions := [(0, ⟨0, 0xC000, fmt⟩)] }).setRegN (.str 0 0) 0x48 0xFF with wall := 1 }

/-- Core 0, as given otherwise, about to check `d`, every engine enabled. -/
def core0Checks (d : Desc) (x : Core) : State :=
  { (core { x with stream := atHead d }).setRegN (.str 0 0) 0x48 0xFF with wall := 1 }

/-- A stream with a decoded descriptor behind its front one. -/
def withNext (d : Desc) (st : Stream) : Stream :=
  { st with tr := { st.tr with fetch := { window := st.tr.fetch.window ++ [{ addr := 0x1040, desc := d, gran := 1, tick := some 0 }] } } }

/-- The same stream in an untimed segment. -/
def untimed (st : Stream) : Stream := { st with tr := { st.tr with timed := false } }

/-- A REPEAT of one descriptor whose count is in the skein at 0x100. -/
def indirectRepeat : Desc := desc 8 1 0 ([(4, 2 ^ 24), (5, 1), (6, 100)] ++ field 1 1 13 0 0x100 1)

/-- A WAIT for counter 3 to reach 1. -/
def waits : Desc := desc 8 4 0 [(4, 3), (6, 1)]

/-- A shaper, gather, sampler or collective descriptor. -/
def other (eng opc : Nat) (fs : List (List (Nat × Nat))) (ws : List (Nat × Nat)) : Desc := desc eng opc 0 (fs.flatten ++ ws)

/-- A MULTIPLY of E4M3 weights with G = 1 by one activation tile, which drains to 0x20000 in region 1. -/
def multiplies : Desc := desc 1 2 0 ([(9, 0x81F00000)] ++ field 0 1 3 0 0x100 33 ++ field 1 2 0xF 0 0x20000 512 ++ [(12, 0x9106)])

/-- A LOAD_PLANES of E4M3 weights with G = 1, as wide as one group. -/
def loads : Desc := desc 1 1 0 (field 0 1 9 0 0x1000 1536 ++ [(8, 0x100)])

/-- An accumulator bank in which every slot is empty. -/
def emptyRun : BankRun := ⟨Array.replicate 8192 {}, Array.replicate 2048 0, 0, [], []⟩

/-- An operation of core 0 in flight, timed and of fixed latency unless `work` says otherwise. -/
def op (d : Desc) (work : Work) : Op :=
  { id := 1, desc := d, eff := (List.range 3).map fun k => dw d (4 + 4 * k), eng := dEng d, tag := 0, tick := 0, timed := true, slots := []
    varLat := match work with | .fixed _ => false | _ => true
    cause := 0, work := work }

/-- An FP32 ADD of one beat in flight, whose result is written in tick 19 (R195). -/
def adding : Op := op (lane 1 13) (.fixed 20)

/-- A RESHAPE of two rows of three beats. -/
def reshaping : Op := op (desc 3 3 0 (field 0 1 13 0 0x1000 7 ++ field 1 2 13 0 0x2000 6 ++ [(12, 2), (13, 3), (14, 4), (15, 3)])) (.fixed 40)

/-- A GATHER and a SCATTER of one-beat rows by 16 indices, from or into a table of 64 rows. -/
def gathering : Op := op (desc 4 1 0 (field 0 1 5 0 0x1000 1 ++ field 1 1 13 0 0x2000 64 ++ field 2 2 13 0 0x8000 16)) (.fixed 40)

@[inherit_doc gathering]
def scattering : Op := op (desc 4 2 0 (field 0 1 5 0 0x1000 1 ++ field 1 1 13 0 0x8000 16 ++ field 2 3 13 0 0x2000 64)) (.fixed 40)

/-- Core 0 with one operation in flight. -/
def flying (o : Op) : State := core { inflight := [o] }

/-- A beat that has returned for no operation. -/
def stray : RetBeat := { addr := 0x400, bytes := List.replicate 64 9, ready := 0, planned := false, order := 0, op := none, beat := 0 }

/-- Core 0 reads a beat of host memory. -/
def hostCopy : Desc := desc 0 1 0 (three (field 0 1 13 5 0x100 1) (field 1 2 13 0 0x200 1) [] [])

/-- Core 0 with that read incomplete and its beat returned. -/
def hostReading : State := core { inflight := [op hostCopy (.landing 1)], ret := [{ stray with addr := 0x200, op := some 1 }] }

/-- Core 0 with that read incomplete and its beat outstanding. -/
def hostWaiting : State := core { inflight := [op hostCopy (.landing 1)] }

/-- A granule for device address 0. -/
def granule (kind : GranuleKind) : Granule := ⟨kind, 0, 1, 0, 0, 0, 1, 0x100, 0, 0⟩

/-- One granule at its stack. -/
def granuleWaits (kind : GranuleKind) : State := up.setHbmStack (hbmPlace up 0).1 (hbmPlace up 0).2.1 { queue := [granule kind] }

/-- A PLANNED stack 0 of panel 0 with refreshes every 1024 ticks from tick 512 and scrub slots of 64 ticks every 2^17. -/
def plannedStack : State :=
  ((((withPlanned up).setRegN (.hbm 0 0) 0x44 1024).setRegN (.hbm 0 0) 0x48 512).setRegN (.hbm 0 0) 0x4C 17).setRegN (.hbm 0 0) 0x54 64

/-- Core 0 armed for a launch whose first chart is being fetched. -/
def launching (l : Launch) (f : Fetch) : State := core { stream := { st := .armed, launch := some l, nextFetch := f } }

/-- A hold waits for the count of an indirect REPEAT. -/
def latching : State :=
  { checking 13 { atHead indirectRepeat with tr := { (atHead indirectRepeat).tr with requested := true } } with
    hold := some (holdOf [(.latch 0, false)] true) }

/-- A timed segment of core 0 runs. -/
def timedRun (s : State) : State := { s with cores := [(0, { stream := { st := .running, tr := { timed := true } } })] }

/-- Core 0 fetches the chart at device address 0. -/
def fetching (out : List FetchGranule) : State := core { stream := { st := .running, tr := { fetch := { next := some 0, out := out } } } }

/-- A stash command of panel 0 runs. -/
def stashRuns (c : StsCmd) : State := { up.setStash 0 { cmd := some c } with stashMem := Mem.store [] 0 [5, 6] }

/-- One page read at the stash of panel 0. -/
def pageReq (decoded : Option Nat) : StashReq := ⟨4, 0, 1, 0, 0, 0, 0x100, false, 0, decoded, List.replicate 16 3, false⟩

/-- Node 0 of job lot 5 with input slots 1 and 2, in a state of the cast-on. -/
def node0 (x : Node) : State :=
  { ((up.setRegN .cast 0x104 5).setRegN .cast 0x108 6).setNode 0 x with
    links := [(0, { st := .up })] }

/-- The same, with port 0 open to lot 5 and the package a member of lot 5 by context 0. -/
def node0Up (x : Node) : State :=
  (((node0 x).setRegN (.ply 0) 0x60 (2 ^ 31 + 5)).setRegN .fab 0x48 (2 ^ 31)).setRegN .fab 0x50 (2 ^ 31 + 5)

/-- The package arrives at node 0 through slot 1. -/
def arriving (x : Node) : State := (node0 x).setRegN .cast 0x40 (2 ^ 16)

/-- Link 0 as given. -/
def linked (x : Link) : State := up.setLink 0 x

/-- Port 0 is UP and open to lot 5; context 0 of the job has lot 5. -/
def port0 : State :=
  (((linked { st := .up }).setRegN (.ply 0) 0x60 (2 ^ 31 + 5)).setRegN .fab 0x48 (2 ^ 31)).setRegN .fab 0x50 (2 ^ 31 + 5)

/-- A RANK transfer of core 0 that waits for its grant. -/
def rankCopy : Desc := desc 0 1 0 (three (field 0 1 13 0 0x100 4) (field 1 2 13 4 0x10 4) [] [])

/-- A forward entry for rank 0 that stays here. -/
def forwards : State := { (port0.setRegN .fab 0x5C (2 ^ 16)) with rankTables := [(8192, [BitVec.ofNat 32 (2 ^ 31), 0x80, 0, 0])] }

/-- Serving parameters: two slots of at most 16 prompt tokens, pages of 16 tokens. -/
def params : SrvParams :=
  ⟨false, 2, 16, 16, 1, 1000, 2, 4, 0, 1000000, 1, 0x100000, 0x200000, 0x300000, 0x400000, 0x10000, [0x1000], [], 0x500000, 0, 0, 0, 0⟩

/-- A submission entry from its words that are not 0: word 0 is the operation, word 1 the CID. -/
def entry (ws : List (Nat × Nat)) : List Byte := (List.range 16).flatMap fun n => leBytes 4 (FMap.look 0 ws n)

/-- A queue pair with one entry. -/
def ring : Qp := { s := 4, c := 4, sq := 0x1000, cq := 0x2000, sqTail := 1, tSubmit := [0] }

/-- Serving is READY, and queue pair q holds the entry. -/
def serving (q : Nat) (e : List Byte) : State := { up with
  fns := [(0, { bme := true })]
  hostMem := Mem.store [] 0x1000 e
  srv := { st := .ready, params := some params, qps := [(q, some ring)], pools := [(0, { addr := 0x600000, pages := 64, free := (List.range 63).map (· + 1) })] } }

/-- `s` with its scheduler changed. -/
def srvWith (s : State) (f : Srv → Srv) : State := { s with srv := f s.srv }

/-- A request of queue pair 5 in context 3. -/
def request (st : CtxSt) : Ctx :=
  { st := st, draft := 0, qp := 5, cid := 9, motif := 0, prefixH := 0, pool := 0, ptPage := 0, shared := 0, promptTotal := 4, committed := 4
    inToken := 7, maxNew := 8, tokens := 1, reserved := 1, temp := 0, topk := 0, topp := 0, strm := 0, out := 0x8000, tSubmit := 0, tFirst := 1
    tLast := 1, deadline := none, maxGap := 0, promptAddr := 0x400000, promptLen := 4, sqhd := 1 }

/-- A GENERATE of 4 tokens at host address 0x3000 for up to 8 more, with the output at 0x8000. -/
def generateE : List Byte := entry [(0, 1), (1, 9), (5, 4), (6, 0x3000), (8, 0x8000), (10, 8), (11, 0x3F800000), (12, 0x3C000001)]

/-- Forecasting with one model. -/
def forecasting (q : Nat) (e : List Byte) : State :=
  srvWith (serving q e) fun r => { r with params := some { params with forecasting := true, models := [⟨0x1000, 0, 1, 4, 64, 64, 0⟩], fcInLen := 4096, fcOutLen := 4096 } }

/-- A function whose interrupts are enabled, masked or not. -/
def interrupts (fn : Nat) (masked pba : Bool) (s : State) : State := { s with fns := [(fn, { msixEnable := true, funcMask := masked, pba := pba })] }

/-- Virtual function 64 has an unmasked cause. -/
def vfCause : State := (up.setReg (.vfn 64) 0x20 1).setReg (.vfn 64) 0x200C 0

/-- The interrupt controller of panel 0 with sources 352 and 353 pending for hart 3, priorities 4 and 4. -/
def twoSources : State := up.setIcu 0 { srcs := [(352, { en := true, sense := 2, prio := 4, hart := 3, edge := true }), (353, { en := true, sense := 2, prio := 4, hart := 3, edge := true })] }

/-- Handlers of sources 7 and 9 nest on hart 0. -/
def nested : State := up.setIcu 0 { srcs := [(7, { active := true }), (9, { active := true })], prioStacks := [(0, [(9, 5), (7, 3)])] }

/-- Die-to-die interface 0 of panel 0 as given. -/
def d2dAs (x : D2d) : State := up.setD2d 0 0 x

/-- TIME skips or doubles a nanosecond next. -/
def slewing (n : Int) : State := { up with clk := { slewLeft := n, slewOwed := 1 } }

/-- Domain i of panel 0 as given. -/
def domAs (n : Nat) (x : Dom) : State := up.setDom 0 n x

/-- A monitor of panel 0 that throttles for its temperature. -/
def throttling (r : Int) : State := { up.setThm 0 { reading := r, dutyT := 1 } with time := 1000000 }

/-- A recorder of panel 0 with a trigger. -/
def triggered : State := { up with evrs := [(0, { head := 1024, pending := some ⟨1, 2, 5, 0, 0, 0, 0⟩ })] }

/-- An in-service window of virtual core 0 at tick 0, with the package released. -/
def window : State := { up.setRegN .flt 0x70 (2 ^ 31) with
  castSt := .released, flt := { istTable := [(0, [0, 4096, 0, 0, 0, 0, 0, 0])] } }

/-- Every priority of `twoSources` fits its field. -/
theorem prios (m : Nat) : ((twoSources.icu 0).src m).prio ≤ 15 := by
  show (FMap.look ({} : IcuSrc) [(352, _), (353, _)] m).prio ≤ 15
  simp only [FMap.look]
  split
  · decide
  · split <;> decide

/-- `s` with a message of the cast-on due. -/
def told (m : CastMsg) (s : State) : State := { s with castMsgs := [(0, m)] }

/-- A control packet of lot 5 from its TYPE, its byte of ROUTED, VL and TTL, and its BODY. -/
def ctlFrame (typ routing : Nat) (body : List Byte) : RxFrame := ⟨true, true, false, ctlBytes typ routing 5 0 0 body⟩

/-- An empty notice of node 0, as a message and as the BODY of its packet. -/
def noticed : NoticeBody := ⟨0, 0, 0, 0, 0, 0, 0, 0, 0, 0, 0⟩

/-- The stash of panel 0 with one page decoded for core 0. -/
def decodedPage (x : Stash) : State := up.setStash 0 { x with reqs := [pageReq (some 0)] }

/-- A chart's granule whose bytes have come. -/
def fetchedGranule (guess bytes : List Byte) : FetchGranule :=
  { id := 1, addr := 0, entry := 0, guess := guess, bytes := bytes, ready := some 0 }

/-- Bytes of four descriptors: an IMM_STORE and three ENDs. -/
def chartBytes : List Byte := words ((desc 8 6 0 [(4, 0x100)]).map (·.toNat)) ++ (List.replicate 3 (words ((desc 8 3 0 []).map (·.toNat)))).flatten

/-- A frame of a class with its sequence number, an acknowledgement and one byte of payload, as it is sent. -/
def frame (cls seq ackClass ack : Nat) : List Byte :=
  (⟨cls, seq, false, true, true, 64, ackClass, ack, false, 0, List.replicate 256 7⟩ : SentFrame).wire

/-- A data frame to send. -/
def txFrame (n : Nat) : TxFrame := ⟨n, true, true, 64, List.replicate 256 1⟩

/-- A data packet of one frame to send. -/
def txData : TxData := { port := 0, lot := 5, panelBuf := none, from_ := none, started := false, due := 0, frames := [txFrame 0] }

/-- The header of a packet of lot 5 for rank 0 at its last of `hops` hops but `left`, with n granules for virtual core v. -/
def pktHead (left v n route : Nat) : PktHead :=
  { lot := 5, hops := 1, next := 1 - left, dstVcore := v, dstRank := 0, srcVcore := 0, srcRank := 0, sig := none, last := true, granules := n, dbeat := 0
    route := route }

/-- That packet's first frame, with the payload that follows the header there. -/
def pktFrame (h : PktHead) (eop : Bool) (payload : List Byte) : RxFrame := ⟨true, eop, false, h.words.flatMap (leBytes 4) ++ payload⟩

/-- Link 0 of `port0` is UP with the frames in the buffer of its data. -/
def dataIn (s : State) (l : List RxFrame) : State := s.setLink 0 { st := .up, data := { rx := l, used := l.length } }

/-- Link 0 is UP with a control packet in the buffer of its first lane. -/
def ctlHere (s : State) (f : RxFrame) : State := s.setLink 0 { st := .up, vl0 := { rx := [f], used := 1 } }

/-- Core 0 of `port0` with its RANK transfer, and rank 0 in the rank table by way of link 0. -/
def rankSends (o : Op) : State :=
  { (((port0.setRegN .fab 0x58 (2 ^ 16)).setRegN .fab 0x54 9)) with
    cores := [(0, { inflight := [o] })], rankTables := [(0, [BitVec.ofNat 32 (2 ^ 31), 1, 0, 0])] }

/-- The parameters of forecasting with one model. -/
def fcParams : SrvParams := { params with forecasting := true, models := [⟨0x1000, 0, 1, 4, 64, 64, 0⟩], fcInLen := 4096, fcOutLen := 4096 }

/-- A step record in the HBM: context, accepted and emitted tokens, one token. -/
def recordAt (s : State) (c accept emit tok : Nat) : State :=
  { s with hbm := Mem.store s.hbm params.stepRecords (leBytes 4 c ++ leBytes 1 accept ++ leBytes 1 emit ++ leBytes 2 0 ++ leBytes 4 tok) }

/-- The CRC of R293 over a byte list, each byte's value worked out before the next. -/
def crcFold (c : Nat) (bs : List Byte) : Nat :=
  bs.foldr (fun b k c => match crcByte c b with
    | 0 => k 0
    | n + 1 => k (n + 1)) id c

theorem foldl_crcByte (c : Nat) (bs : List Byte) : bs.foldl crcByte c = crcFold c bs := by
  induction bs generalizing c with
  | nil => rfl
  | cons b bs ih =>
    rw [List.foldl_cons, ih, crcFold, crcFold, List.foldr_cons]
    generalize crcByte c b = x
    cases x <;> rfl

theorem crcOk_fold (bs : List Byte) :
    crcOk bs = (decide (bs.length = 268) && (crcFold 0xFFFFFFFF (bs.take 264) ^^^ 0xFFFFFFFF) == leNat (bs.drop 264)) := by
  rw [crcOk, crc32, foldl_crcByte]

theorem wire_fold (f : SentFrame) : f.wire = f.covered ++ leBytes 4 (crcFold 0xFFFFFFFF f.covered ^^^ 0xFFFFFFFF) := by
  rw [SentFrame.wire, crc32, foldl_crcByte]

/-- A request of its four bytes and little more fits every endpoint's buffer (R482). -/
theorem requestOk_short {code : Nat} {req : List Byte} (h4 : 4 ≤ req.length) (h64 : req.length ≤ 64) (h : (req.getD 1 0).toNat = code) :
    requestOk code req = true := by
  have : req.length ≤ 64 + Config.mctpSpare := by omega
  rw [requestOk, h]
  simp [h4, this]

/-- Encoded nibbles that all hold position 1 above position 0. -/
theorem nibbles (i : Nat) (h : i < 4096) :
    let v := ((List.replicate 512 (0 : Byte) ++ List.replicate 6144 0x44).getD (512 + i / 2) 0).toNat / 16 ^ (i % 2) % 16
    v % 4 < v / 4 := by
  have e : (List.replicate 512 (0 : Byte) ++ List.replicate 6144 0x44).getD (512 + i / 2) 0 = 0x44 := by
    rw [List.getD_append_right _ _ _ _ (by rw [List.length_replicate]; omega), List.length_replicate]
    exact List.getD_replicate _ (by omega)
  rw [e]
  rcases Nat.mod_two_eq_zero_or_one i with h | h <;> rw [h] <;> decide

/-- The premises that ArrivalsCollectAtTheirNode shares: the arrival of this package, or one from `src`. -/
def Arrives (s : State) (i : Instr) (n slot : Nat) (src : Option CastSrc) : Prop :=
  Live s = true
  ∧ (src = none → i = .castCtrlArrive ∧ s.castSt = .idle ∧ s.bind = none ∧ n = bits (s.regN .cast 0x40) 8 6 ∧ slot = bits (s.regN .cast 0x40) 16 5)
  ∧ (∀ e, src = some e → i = .castArrive e (nodeLot s n) n slot ∧ n < 64
      ∧ CastComes s e (nodeLot s n) 0 1 (fun p _ => p.nat 16 1 = n ∧ p.nat 17 1 = slot) (.arrive (srcNode e) n slot))

/-- The node takes the arrival, and then waits for these slots. -/
def takesArrival (s : State) (n slot : Nat) : Bool :=
  decide ((s.node n).st = .idle ∨ (s.node n).st = .collecting) && decide (slot < 32) && bitOf (nodeMask s n) slot && !bitOf (s.node n).arrived slot

@[inherit_doc takesArrival]
def missingAfter (s : State) (n slot : Nat) (src : Option CastSrc) : Nat :=
  nodeMask s n &&& (0xFFFFFFFF ^^^ ({ s.node n with
    arrivals := (s.node n).arrivals ++ (src.map fun e => (slot, e)).toList, localSlot := if src = none then some slot else (s.node n).localSlot } : Node).arrived)

/-- The premises of a RELEASE at node 0 of lot 5. -/
def Released (s : State) (src : CastSrc) (st : NodeSt) (r : Nat) (base : DWord) (late : Bool) : Prop :=
  Live s = true ∧ (s.node 0).st = st ∧ CastComes s src (nodeLot s 0) 1 2
    (fun p rpl => p.nat 16 1 = 0 ∧ p.nat 20 3 = r ∧ p.nat 24 8 = base.toNat ∧ rpl = late) (.release (srcNode src) 0 r base)

/-- A STASH command `c` of panel 0 runs, with nothing at the HBM controllers. -/
def StashRuns (s : State) (c : StsCmd) : Prop :=
  Live s = true ∧ writable s (.sts 0) = true ∧ (s.stash 0).cmd = some c ∧ stsRangeOk s 0 c = true ∧ domOn s (hbmPlace s c.haddr).1 9 = true
  ∧ ∀ q st, (s.hbmStack q st).queue = []

/-- The premises that an arriving frame of link 0 meets, with a passing CRC. -/
def FrameComes (s : State) (bytes : List Byte) (f : SentFrame) : Prop :=
  Live s = true ∧ writable s (.ply 0) = true ∧ (s.link 0).st = .up ∧ crcOk bytes = true ∧ readFrame bytes = f

/-! ## Ill-formed commands: one for each check -/
/-! ## Ill-formed commands: one for each check -/

theorem test_ill_formed_panel : Instr.wellFormed (.hbmRefreshWindow 8 0) = false := by decide +kernel
theorem test_ill_formed_core_panel : Instr.wellFormed (.strGo ⟨8, 0⟩ true) = false := by decide +kernel
theorem test_ill_formed_core_index : Instr.wellFormed (.nop ⟨0, 288⟩) = false := by decide +kernel
theorem test_ill_formed_link : Instr.wellFormed (.trainingDone 32) = false := by decide +kernel
theorem test_ill_formed_node : Instr.wellFormed (.castonNodeTimeout 64) = false := by decide +kernel
theorem test_ill_formed_slot : Instr.wellFormed (.castArrive (.node 0) 0 0 32) = false := by decide +kernel
theorem test_ill_formed_lot : Instr.wellFormed (.bindOffStart 65536) = false := by decide +kernel
theorem test_ill_formed_queue_pair : Instr.wellFormed (.cancel 262144 true) = false := by decide +kernel
theorem test_ill_formed_vf_zero : Instr.wellFormed (.flrVf 0) = false := by decide +kernel
theorem test_ill_formed_vf_high : Instr.wellFormed (.flrVf 65) = false := by decide +kernel
theorem test_ill_formed_function : Instr.wellFormed (.msixUnmask 65) = false := by decide +kernel
theorem test_ill_formed_source : Instr.wellFormed (.icuPendingClear 0 512) = false := by decide +kernel
theorem test_ill_formed_hart : Instr.wellFormed (.icuClaim 0 4) = false := by decide +kernel
theorem test_ill_formed_domain : Instr.wellFormed (.domainReached 0 12) = false := by decide +kernel
theorem test_ill_formed_d2d_entry : Instr.wellFormed (.d2dPhase 0 3) = false := by decide +kernel
theorem test_ill_formed_cast_node : Instr.wellFormed (.castAbort (.node 64) 0 0) = false := by decide +kernel
theorem test_ill_formed_cast_link : Instr.wellFormed (.castAbort (.link 32) 0 0) = false := by decide +kernel
theorem test_ill_formed_notice : Instr.wellFormed (.notice (.node 0) 0 ⟨0, 0, 2, 0, 0, 0, 0, 0, 0, 0, 0⟩) = false := by decide +kernel
theorem test_ill_formed_notice_panel : Instr.wellFormed (.notice (.node 0) 0 ⟨0, 0, 0, 0, 0, 0, 0, 0, 0, 8, 0⟩) = false := by decide +kernel
theorem test_ill_formed_frame : Instr.wellFormed (.frameReceive 0 [] 0) = false := by decide +kernel
theorem test_ill_formed_lane : Instr.wellFormed (.fwMsg 0 2) = false := by decide +kernel
theorem test_ill_formed_rail : Instr.wellFormed (.supplyRailChange (.vcore 8) true) = false := by decide +kernel
theorem test_ill_formed_test_hart : Instr.wellFormed (.testPortAccess (.halt 0 4)) = false := by decide +kernel
theorem test_ill_formed_test_address : Instr.wellFormed (.testPortAccess (.read 0 0 (2 ^ 32))) = false := by decide +kernel
theorem test_ill_formed_straps : Instr.wellFormed (.perstNDeassert ⟨true, 4, false⟩) = false := by decide +kernel
theorem test_ill_formed_host_failure_count : Instr.wellFormed (.hostRequestFail ⟨0, 0⟩ 6 0 0 .timeout) = false := by decide +kernel
theorem test_ill_formed_skein_bank : Instr.wellFormed (.sknWriteback ⟨0, 0⟩ 32) = false := by decide +kernel
theorem test_ill_formed_skein_address : Instr.wellFormed (.sknScrub ⟨0, 0⟩ [⟨0x400000, false⟩]) = false := by decide +kernel
theorem test_ill_formed_hbm_stack : Instr.wellFormed (.hbmFreeRefresh 0 3) = false := by decide +kernel
theorem test_ill_formed_hbm_pseudo_channel : Instr.wellFormed (.hbmGranuleStart 0 0 32 []) = false := by decide +kernel
theorem test_ill_formed_bar4_offset : Instr.wellFormed (.bar4Access (2 ^ 40) (.read 1)) = false := by decide +kernel
theorem test_ill_formed_stash_block : Instr.wellFormed (.stashBlockScrub 0 8192 false none) = false := by decide +kernel
theorem test_ill_formed_stash_page : Instr.wellFormed (.stashBlockScrub 0 0 false (some 8192)) = false := by decide +kernel
theorem test_ill_formed_release_time : Instr.wellFormed (.castRelease (.link 0) 0 0 (2 ^ 32) 0 false) = false := by decide +kernel
theorem test_ill_formed_gauge : Instr.wellFormed (.gaugingDone 0 (2 ^ 32)) = false := by decide +kernel
theorem test_ill_formed_ack_class : Instr.wellFormed (.ackTimerExpire 0 3) = false := by decide +kernel
theorem test_ill_formed_lot_entry : Instr.wellFormed (.plyLotWrite 0 4 0) = false := by decide +kernel
theorem test_ill_formed_context_index : Instr.wellFormed (.fabCtxActivate 4 0) = false := by decide +kernel
theorem test_ill_formed_doorbell : Instr.wellFormed (.sqTail 0 (2 ^ 32)) = false := by decide +kernel
theorem test_ill_formed_prefix_slot : Instr.wellFormed (.prefixPrefillDone 1048576) = false := by decide +kernel
theorem test_ill_formed_motif_slot : Instr.wellFormed (.motifReleaseDone 65536) = false := by decide +kernel
theorem test_ill_formed_link_speed : Instr.wellFormed (.linkChange 8 16 true) = false := by decide +kernel
theorem test_ill_formed_link_width : Instr.wellFormed (.linkChange 6 32 true) = false := by decide +kernel
theorem test_ill_formed_holdoff_group : Instr.wellFormed (.icuHoldoffExpire 0 16) = false := by decide +kernel
theorem test_ill_formed_plan_set : Instr.wellFormed (.planSetChange 4) = false := by decide +kernel
theorem test_ill_formed_reading_low : Instr.wellFormed (.thmSample 0 (-1025)) = false := by decide +kernel
theorem test_ill_formed_reading_high : Instr.wellFormed (.thmSample 0 1024) = false := by decide +kernel
theorem test_ill_formed_ist_entry : Instr.wellFormed (.istWindow 4096 .pass) = false := by decide +kernel
theorem test_ill_formed_evr_ring : Instr.wellFormed (.evrSoft 9) = false := by decide +kernel
theorem test_ill_formed_endpoint : Instr.wellFormed (.setEndpointId .i3c 256) = false := by decide +kernel
theorem test_ill_formed_message_type : Instr.wellFormed (.getMctpVersionSupport .vdm 256) = false := by decide +kernel
theorem test_ill_formed_certificate_slot : Instr.wellFormed (.getCertificate .doe 8 []) = false := by decide +kernel
theorem test_ill_formed_measurement_index : Instr.wellFormed (.getMeasurements .doe 0 256 []) = false := by decide +kernel
theorem test_ill_formed_writer : Instr.wellFormed (.registerWrite 73 0 4 0 false) = false := by decide +kernel
theorem test_ill_formed_reader : Instr.wellFormed (.registerRead 73 0 4) = false := by decide +kernel
theorem test_ill_formed_sram_address : Instr.wellFormed (.localSramScrub 0 [⟨0x200000, true⟩]) = false := by decide +kernel
theorem test_ill_formed_i3c_address : Instr.wellFormed (.i3cAddressAssigned 128) = false := by decide +kernel
theorem test_well_formed_boundary : Instr.wellFormed (.icuEoi 7 3 511) = true ∧ Instr.wellFormed (.d2dPhase 7 2) = true ∧
    Instr.wellFormed (.flrVf 64) = true ∧ Instr.wellFormed (.thmSample 0 (-1024)) = true := by decide +kernel

/-! ## The table's words -/

theorem test_no_word_spells_a_command : decodeTableWord 32 0xffffffff = none := rfl
theorem test_placing_a_word_changes_nothing : State.reset.withFetchWord 32 5 = State.reset := rfl

/-! ## The manual's worked examples -/

/-- Worked example after R130: a weight column packed with G = 0, 1 and 4. -/
theorem test_packing_a_copy_base_column :
    (packElems 9 4 none [0x55, 0xC3, 0x2A, 0x4D]).mants = [6, -1, 0, 3] ∧ (packElems 9 4 none [0x55, 0xC3, 0x2A, 0x4D]).scale = 0x80 ∧
    (packElems 9 5 none [0x55, 0xC3, 0x2A, 0x4D]).mants = [13, -3, 0, 6] ∧ (packElems 9 5 none [0x55, 0xC3, 0x2A, 0x4D]).scale = 0x7F ∧
    (packElems 9 8 none [0x55, 0xC3, 0x2A, 0x4D]).mants = [104, -22, 2, 52] ∧
    (packElems 9 8 none [0x55, 0xC3, 0x2A, 0x4D]).scale = 0x7C := by decide +kernel

/-- Worked example after R142: exact values converted to E4M3. -/
theorem test_exact_values_to_e4m3 :
    (encodeEl 9 0 0 0 false (.fin 300 0)).bits = 0x79 ∧ (encodeEl 9 0 1 0 false (.fin 300 0)).bits = 0x79 ∧
    (encodeEl 9 0 0 0 true (.fin 464 0)).bits = 0x7E ∧ (encodeEl 9 0 0 0 false (.fin 470 0)).bits = 0x7E ∧
    (encodeEl 9 0 0 0 true (.fin 470 0)).bits = 0x7F ∧ (encodeEl 9 0 1 0 true (.fin 470 0)).bits = 0x7E ∧
    (encodeEl 9 0 0 0 false (.fin (-9) (-14))).bits = 0x80 ∧ (encodeEl 9 0 0 0 false (.fin 3 (-11))).bits = 0x01 ∧
    (encodeEl 9 0 1 0 false (.fin 3 (-11))).bits = 0 := by decide +kernel

/-- Worked example after R24: virtual core 602 with slots 3 and 11 of course 5 of panel 2 fused off. -/
theorem test_mapping_a_virtual_core :
    physOf { State.reset with fuses := { State.reset.fuses with slotMap := [(37, 0x3F7F7)] } } 602 = some (coreKey 2 102) ∧
    virtOf { State.reset with fuses := { State.reset.fuses with slotMap := [(37, 0x3F7F7)] } } (coreKey 2 102) = 602 := by
  decide +kernel

/-- Worked example of R409: a limit of 3,800 W gives level 4. -/
theorem test_a_power_limit_gives_its_level :
    bits (viewGov (up.writeReg .gov 0x40 3800) 0x44) 16 4 = 4 := by decide +kernel

/-- Worked example of the interrupt controller: 294 nests above 330, and the hold-off keeps 331 back. -/
theorem test_interrupts_nest :
    icuStack (icuClaim 3 0 (icuClaim 3 0 (up.setIcu 3 { srcs := [(294, { en := true, sense := 2, prio := 12, hart := 0, edge := false }),
      (330, { en := true, sense := 2, prio := 6, hart := 0, edge := true })] }))) 3 0 = [(330, 6)] ∧
    icuStack (icuClaim 3 0 (up.setIcu 3 { srcs := [(294, { en := true, sense := 2, prio := 12, hart := 0, edge := true }),
      (330, { en := true, sense := 2, prio := 6, hart := 0, active := true })], prioStacks := [(0, [(330, 6)])] })) 3 0
      = [(294, 12), (330, 6)] ∧
    inHoldoff (icuClaim 3 0 ((up.setReg (.icu 3) 0xA8 50).setIcu 3 { srcs := [(330, { en := true, sense := 2, prio := 6, edge := true })] }))
      3 10 = true := by decide +kernel

/-- Worked example after R173: 80 passes of a MULTIPLY of E4M3 weights with G = 1, and its first drain write at t + 88. -/
theorem test_the_ticks_of_a_multiply :
    passes (other 1 2 [field 0 1 3 0 0x100 264, field 1 2 0xF 0 0x20000 1024] [(12, 0x910E)]) = 80 ∧
    drainTick (other 1 2 [field 0 1 3 0 0x100 264, field 1 2 0xF 0 0x20000 1024] [(12, 0x910E)]) 0 = 88 := by decide +kernel

/-- The sum of R202 and R176: the four contributions of an in-order forecast sum. -/
theorem test_a_landed_sum : addLs 3 4 0 = (7, {}) ∧ (addLs (2 ^ 127 - 1) 1 5).1 = 2 ^ 127 - 1 := by decide +kernel

/-- Known answer of FIPS 180-4: SHA-384 of "abc". -/
theorem test_sha384_of_abc : leNat ((sha384 [0x61, 0x62, 0x63]).take 4) = 0x3f7500cb := by decide +kernel

/-- Known answer of CRC-32: the check value of "123456789". -/
theorem test_crc32_check_value : crc32 [0x31, 0x32, 0x33, 0x34, 0x35, 0x36, 0x37, 0x38, 0x39] = 0xCBF43926 := by decide +kernel

/-- Every engine has an operation in flight that could be its own. -/
theorem witness_operations_of_every_engine : ∀ e < 8, ∀ c < 32, ∃ o : Op, o.eng = e ∧ dEng o.desc = e ∧ dOpc o.desc = c := by
  intro e he c hc
  refine ⟨op (desc e c 0 []) (.fixed 1), ?_, ?_, ?_⟩ <;> revert e c <;> decide +kernel

/-! ## States and operands that meet the premises of each statement -/

/-- The premises of StepRunsTheFrontCommand meet. -/
theorem witness_StepRunsTheFrontCommand :
    ∃ (s : State) (c : Instr) (rest : List Instr), s.pending = c :: rest :=
  ⟨{ up with pending := [.holdFreeze] }, .holdFreeze, [], by decide +kernel⟩

/-- The premises of AnEmptyQueueLetsOnePlanClockPeriodPass meet. -/
theorem witness_AnEmptyQueueLetsOnePlanClockPeriodPass :
    (∃ (s : State), s.pending = [] ∧ s.pins.perst = true) ∧
    (∃ (s : State), s.pending = [] ∧ s.pins.perst = false) ∧
    (∃ (s : State) (k : Nat) (o : Op) (dur j : Nat), Alone s k o ∧ o.work = Work.fixed dur ∧ o.eng ≠ 0 ∧ (o.eng = 5 → dOpc o.desc = 1) ∧ j ≠ k) ∧
    (∃ (s : State) (k : Nat) (o : Op) (dur : Nat), Alone s k o ∧ o.work = Work.fixed dur ∧ planMoves s = false) ∧
    (∃ (s : State) (k : Nat) (o : Op) (dur : Nat), Alone s k o ∧ o.work = Work.fixed dur ∧ planMoves s = true) := by
  refine ⟨?_, ?_, ?_, ?_, ?_⟩
  · exact ⟨{ up with pins := { up.pins with perst := true } }, by decide +kernel⟩
  · exact ⟨up, by decide +kernel⟩
  · exact ⟨flying adding, 0, adding, 20, 1, by unfold Alone noInjection; refine ⟨⟨?_, ⟨20, rfl⟩, ?_⟩, ?_⟩ <;> decide +kernel⟩
  · exact ⟨{ flying adding with hold := some (holdOf [(.debug, false)] true) }, 0, adding, 20,
      by unfold Alone noInjection; refine ⟨⟨?_, ⟨20, rfl⟩, ?_⟩, ?_⟩ <;> decide +kernel⟩
  · exact ⟨flying { adding with age := 19 }, 0, { adding with age := 19 }, 20,
      by unfold Alone noInjection; refine ⟨⟨?_, ⟨20, rfl⟩, ?_⟩, ?_⟩ <;> decide +kernel⟩

/-- The premises of ALivePackageCompletesEveryCommand meet. -/
theorem witness_ALivePackageCompletesEveryCommand :
    ∃ (s : State), Live s = true :=
  ⟨holding [] false, by decide +kernel⟩

/-- The premises of ARailOutOfRangeVoidsEveryGuarantee meet. -/
theorem witness_ARailOutOfRangeVoidsEveryGuarantee :
    ∃ (i : Instr) (s : State), s.pins.spoiled = true ∧ s.pins.perst = false ∧ s.pins.straps.test = false ∧ onPins i = false :=
  ⟨.holdFreeze, { up with pins := { up.pins with spoiled := true } }, by decide +kernel⟩

/-- The premises of ResetHoldsThePackage meet. -/
theorem witness_ResetHoldsThePackage :
    ∃ (i : Instr) (s : State), (s.pins.perst = true ∨ s.pins.straps.test = true) ∧ onPins i = false :=
  ⟨.holdFreeze, { up with pins := { up.pins with perst := true } }, by decide +kernel⟩

/-- The premises of EveryStepKeepsTheMemoriesCanonical meet. -/
theorem witness_EveryStepKeepsTheMemoriesCanonical :
    ∃ (s t : State), MemoriesCanonical s ∧ step s = Host.Outcome.next t :=
  ⟨{ up with pins := { up.pins with perst := true } }, _, by unfold MemoriesCanonical; decide +kernel, rfl⟩

/-- The premises of NoStepLowersTheMinimumSvn meet. -/
theorem witness_NoStepLowersTheMinimumSvn :
    ∃ (n : Nat) (f : Fuses) (s t : State), { s.fuses with svnMin := 0 } = f ∧ n ≤ s.fuses.svnMin ∧ step s = Host.Outcome.next t :=
  ⟨0, { up.fuses with svnMin := 0 }, { up with pins := { up.pins with perst := true } }, _, rfl, by decide +kernel, rfl⟩

/-- The premises of PerstRailsAndThermtripActOnThePins meet. -/
theorem witness_PerstRailsAndThermtripActOnThePins :
    (∃ (s : State), s.pins.perst = true) ∧
    (∃ (s : State), s.pins.perst = false) ∧
    (∃ (s : State) (p : Nat), p < s.fuses.panels ∧ Rail.vio ∉ s.pins.badRails ∧ Rail.v3p3 ∉ s.pins.badRails) := by
  refine ⟨?_, ?_, ?_⟩
  · exact ⟨{ withSkein up 3 [7] with pins := { up.pins with perst := true, badRails := [.vio] } }, by decide +kernel⟩
  · exact ⟨up, by decide +kernel⟩
  · exact ⟨up, 7, by decide +kernel⟩

/-- The premises of FirmwareBootsFromAGoodImage meet. -/
theorem witness_FirmwareBootsFromAGoodImage :
    (∃ (s : State), Live s = true ∧ s.boot.stage = Stage.rom ∧ s.pins.straps.hostBoot = true) ∧
    (∃ (s : State), Live s = true ∧ s.boot.stage = Stage.rom ∧ s.pins.straps.hostBoot = false) ∧
    (∃ (s : State), Live s = true ∧ s.boot.stage = Stage.hostWait) ∧
    (∃ (s : State), Live s = true ∧ s.boot.stage ≠ Stage.hostWait) ∧
    (∃ (s : State) (repaired : FMap Nat), Live s = true ∧ s.boot.stage = Stage.fwStart ∧ FMap.wf 0 repaired = true) := by
  refine ⟨?_, ?_, ?_, ?_, ?_⟩
  · exact ⟨{ State.reset with pins := { State.reset.pins with straps := ⟨true, 0, false⟩ } }, by decide +kernel⟩
  · exact ⟨State.reset, by decide +kernel⟩
  · exact ⟨{ up with boot := { stage := .hostWait } }, by decide +kernel⟩
  · exact ⟨up, by decide +kernel⟩
  · exact ⟨{ up with boot := { stage := .fwStart } }, [(2, 3)], by decide +kernel⟩

/-- The premises of TopoApplyTakesAWholeTableOrNothing meet. -/
theorem witness_TopoApplyTakesAWholeTableOrNothing :
    (∃ (s : State), Live s = true ∧ s.boot.stage ≠ Stage.ready) ∧
    (∃ (s : State),
      let a : Nat := s.reg64 Blk.boot 80;
      let es : List TopoEntry := List.map (topoEntry s a) (List.range ((s.hbm.nat (a + 8) 4).min 32));
      ∃ (i c : Nat), Live s = true ∧ s.boot.stage = Stage.ready ∧ topoRefusal s a es = some (i, c)) ∧
    (∃ (s : State),
      let a : Nat := s.reg64 Blk.boot 80;
      let es : List TopoEntry := List.map (topoEntry s a) (List.range ((s.hbm.nat (a + 8) 4).min 32));
      Live s = true ∧ s.boot.stage = Stage.ready ∧ topoRefusal s a es = none) := by
  refine ⟨?_, ?_, ?_⟩
  · exact ⟨State.reset, by decide +kernel⟩
  · exact ⟨topology 33 [], 0, 1, by decide +kernel⟩
  · exact ⟨topology 2 (linkEntry 0 70 ++ linkEntry 31 99), by decide +kernel⟩

/-- The premises of ALoadEndsCheckedAndAStartArrives meet. -/
theorem witness_ALoadEndsCheckedAndAStartArrives :
    (∃ (s : State), Live s = true ∧ allIdle s = true ∧ s.castSt ≠ CastSt.arrived ∧ s.castSt ≠ CastSt.released ∧ s.bind = none) ∧
    (∃ (s : State), Live s = true ∧ allIdle s = false) ∧
    (∃ (s : State), Live s = true ∧ s.boot.loaded = true ∧ s.castSt = CastSt.idle ∧ s.bind = none) ∧
    (∃ (s : State), Live s = true ∧ (s.boot.loaded = false ∨ s.castSt ≠ CastSt.idle)) := by
  refine ⟨?_, ?_, ?_, ?_⟩
  · exact ⟨up, by decide +kernel⟩
  · exact ⟨core { stream := { st := .armed } }, by decide +kernel⟩
  · exact ⟨{ up with boot := { stage := .ready, loaded := true } }, by decide +kernel⟩
  · exact ⟨up, by decide +kernel⟩

/-- The premises of AHoldFreezesWaitsRefreshesAndEnds meet (1 of 2). -/
theorem witness_AHoldFreezesWaitsRefreshesAndEnds :
    (∃ (s : State) (h : Hold), Live s = true ∧ s.hold = some h ∧ h.frozen = false ∧ h.freezeAt ≤ s.wall) ∧
    (∃ (s : State) (h : Hold), Live s = true ∧ s.hold = some h ∧ h.frozen = false ∧ s.wall < h.freezeAt) ∧
    (∃ (s : State) (h : Hold) (n : Nat) (it : LateItem), Live s = true ∧ s.hold = some h ∧ (List.flatMap (fun r => List.map (fun x => x.1)
      r.items) h.reqs)[n]? = some it ∧ (∀ (k : Nat), it ≠ LateItem.latch k)) ∧
    (∃ (s : State) (h : Hold) (n k : Nat) (w : Fetched),
      let st : Stream := (s.core k).stream;
      let tr : Track := st.tr;
      let eff : List Nat := resolvedAll s k w.desc (indices tr).1 (indices tr).2.1;
      let count : Nat := s.skein.nat (skAddr k (eff.getD 1 0)) 4 % 2 ^ 24;
      Live s = true ∧ s.hold = some h ∧ (List.flatMap (fun r => List.map (fun x => x.1) r.items) h.reqs)[n]? = some (LateItem.latch k) ∧ st.old =
      none ∧ tr.fetch.window.head? = some w ∧ tr.requested = true ∧ tr.timed = true ∧ isIndirect w.desc = true ∧ (∀ p ∈ producers s (s.core k)
      w.desc (frameBase tr + dw w.desc 1), itemArrived s (LateItem.producer k p.id) = true) ∧ s.skErr = [] ∧ s.landed = [] ∧ noInjection s k ∧
      badNext s k w (frameBase tr + dw w.desc 1) count = none) ∧
    (∃ (s : State) (h : Hold), Live s = true ∧ s.hold = some h ∧ h.frozen = true ∧ h.ready = true ∧ h.broadcast = none ∧ refreshing s h = false
      ∧ refreshNeeded s h = false) ∧
    (∃ (s : State) (h : Hold), Live s = true ∧ s.hold = some h ∧ (h.ready = false ∨ refreshing s h = true ∨ refreshNeeded s h = true)) ∧
    (∃ (s : State) (h : Hold) (w : Nat), Live s = true ∧ s.hold = some h ∧ h.frozen = true ∧ h.broadcast = some w ∧ w + 24 ≤ s.wall) ∧
    (∃ (s : State) (h : Hold), Live s = true ∧ s.hold = some h ∧ h.frozen = true ∧ refreshNeeded s h = true) := by
  refine ⟨?_, ?_, ?_, ?_, ?_, ?_, ?_, ?_⟩
  · exact ⟨holding [(.debug, false)] false, holdOf [(.debug, false)] false, by decide +kernel⟩
  · exact ⟨{ holding [(.debug, false)] false with wall := 23 }, holdOf [(.debug, false)] false, by decide +kernel⟩
  · exact ⟨holding [(.producer 0 1, false)] true, holdOf [(.producer 0 1, false)] true, 0, .producer 0 1,
      by refine ⟨?_, ?_, ?_, nofun⟩ <;> decide +kernel⟩
  · exact ⟨latching, holdOf [(.latch 0, false)] true, 0, 0, headOfWindow indirectRepeat, by unfold noInjection; decide +kernel⟩
  · exact ⟨holding [(.debug, true)] true, holdOf [(.debug, true)] true, by decide +kernel⟩
  · exact ⟨holding [(.debug, false)] true, holdOf [(.debug, false)] true, by decide +kernel⟩
  · exact ⟨{ up with wall := 24, hold := some { holdOf [(.debug, true)] true with broadcast := some 0 } },
      { holdOf [(.debug, true)] true with broadcast := some 0 }, 0, by decide +kernel⟩
  · exact ⟨withPlanned { holding [(.debug, true)] true with hold := some { holdOf [(.debug, true)] true with ticks := 4000 } },
      { holdOf [(.debug, true)] true with ticks := 4000 }, by decide +kernel⟩

/-- The premises of AHoldFreezesWaitsRefreshesAndEnds meet (2 of 2). -/
theorem witness_AHoldFreezesWaitsRefreshesAndEnds_2 :
    (∃ (s : State) (h : Hold), Live s = true ∧ s.hold = some h ∧ h.frozen = true ∧ anyPlanned s = true ∧ nsToPeriods s ((h.refreshes + 1) *
      1950) ≤ h.ticks) ∧
    (∃ (s : State) (h : Hold), Live s = true ∧ s.hold = some h ∧ h.frozen = true ∧ h.watched = false ∧ s.regN Blk.hold 80 % 2 ^ 16 ≠ 0 ∧ s.regN
      Blk.hold 80 % 2 ^ 16 * 1000 ≤ BitVec.toNat s.time - BitVec.toNat h.time) := by
  refine ⟨?_, ?_⟩
  · exact ⟨withPlanned { holding [(.debug, true)] true with hold := some { holdOf [(.debug, true)] true with ticks := 4000 } },
      { holdOf [(.debug, true)] true with ticks := 4000 }, by decide +kernel⟩
  · exact ⟨{ holding [(.debug, true)] true with time := 65535000 }, holdOf [(.debug, true)] true, by decide +kernel⟩

/-- The premises of DebugHoldsAndTheSnapshot meet. -/
theorem witness_DebugHoldsAndTheSnapshot :
    (∃ (s : State), Live s = true ∧ s.flt.stopped = false ∧ s.hold = none) ∧
    (∃ (s : State), Live s = true ∧ s.flt.stopped = true) := by
  refine ⟨?_, ?_⟩
  · exact ⟨up, by decide +kernel⟩
  · exact ⟨{ up with flt := { up.flt with stopped := true } }, by decide +kernel⟩

/-- The premises of ALaunchIsAcceptedAndItsSegmentStarts meet. -/
theorem witness_ALaunchIsAcceptedAndItsSegmentStarts :
    (∃ (s : State) (c : CoreId) (k : Nat),
      let b : Blk := strBlk k;
      let start : Nat := s.reg64 b 152;
      Live s = true ∧ coreOf s c = some k ∧ writable s b = true ∧ s.flt.stopped = false ∧ s.castSt ≠ CastSt.arrived ∧ start < BitVec.toNat s.ptc +
      64) ∧
    (∃ (s : State) (c : CoreId) (k : Nat),
      let b : Blk := strBlk k;
      let start : Nat := s.reg64 b 152;
      Live s = true ∧ coreOf s c = some k ∧ writable s b = true ∧ s.flt.stopped = false ∧ (s.castSt = CastSt.arrived ∨ BitVec.toNat s.ptc + 64 ≤
      start)) ∧
    (∃ (s : State) (c : CoreId) (k : Nat),
      let b : Blk := strBlk k;
      Live s = true ∧ coreOf s c = some k ∧ (writable s b = false ∨ s.flt.stopped = true)) ∧
    (∃ (s : State) (c : CoreId) (k : Nat) (l : Launch),
      let st : Stream := (s.core k).stream;
      Live s = true ∧ coreOf s c = some k ∧ (s.core k).stream.launch = some l ∧ l.unchecked = false ∧ ptcRuns s = true ∧ l.start ≤ BitVec.toNat
      s.ptc + 32 ∧ BitVec.toNat s.ptc < l.start ∧ ((s.core k).stream.st = StreamSt.armed ∨ (s.core k).stream.st = StreamSt.running) ∧ hbmAddrOk s
      l.chart = true ∧ (l.timed = false ∨ headReady s st.nextFetch = true)) ∧
    (∃ (s : State) (c : CoreId) (k : Nat) (l : Launch),
      let st : Stream := (s.core k).stream;
      Live s = true ∧ coreOf s c = some k ∧ (s.core k).stream.launch = some l ∧ l.unchecked = false ∧ ptcRuns s = true ∧ l.start ≤ BitVec.toNat
      s.ptc + 32 ∧ BitVec.toNat s.ptc < l.start ∧ ((s.core k).stream.st = StreamSt.armed ∨ (s.core k).stream.st = StreamSt.running) ∧ hbmAddrOk s
      l.chart = true ∧ l.timed = true ∧ headReady s st.nextFetch = false ∧ s.hold = none ∧ s.flt.stopped = false ∧ st.tr.slipPending = false ∧ (∀
      d ∈ st.nextFetch.window.head?, d.tick = none)) ∧
    (∃ (s : State) (c : CoreId) (k : Nat) (l : Launch), Live s = true ∧ coreOf s c = some k ∧ (s.core k).stream.launch = some l ∧ l.unchecked =
      false ∧ ptcRuns s = true ∧ l.start ≤ BitVec.toNat s.ptc + 32 ∧ BitVec.toNat s.ptc < l.start ∧ ((s.core k).stream.st = StreamSt.armed ∨
      (s.core k).stream.st = StreamSt.running) ∧ hbmAddrOk s l.chart = false) ∧
    (∃ (s : State) (k S : Nat), s.pending = [] ∧ s.pins.perst = false ∧ (s.core k).stream.startDue = some S ∧ planMoves s = true ∧ S ≤
      BitVec.toNat (s.ptc + 1)) := by
  refine ⟨?_, ?_, ?_, ?_, ?_, ?_, ?_⟩
  · exact ⟨up, c0, 0, by decide +kernel⟩
  · exact ⟨up.setReg64 (.str 0 0) 0x98 64, c0, 0, by decide +kernel⟩
  · exact ⟨{ up with flt := { up.flt with stopped := true } }, c0, 0, by decide +kernel⟩
  · exact ⟨launching ⟨0x1000, 32, false, false⟩ {}, c0, 0, ⟨0x1000, 32, false, false⟩, by decide +kernel⟩
  · exact ⟨launching ⟨0x1000, 32, true, false⟩ { next := some 0x1000 }, c0, 0, ⟨0x1000, 32, true, false⟩, by decide +kernel⟩
  · exact ⟨launching ⟨2 ^ 40, 1, true, false⟩ {}, c0, 0, ⟨2 ^ 40, 1, true, false⟩, by decide +kernel⟩
  · exact ⟨core { stream := { st := .running, startDue := some 1, old := some {}, issued := 3 } }, 0, 1, by decide +kernel⟩

/-- What the clauses of AnIssueCheckFaultsOrQueuesTheDescriptor share, for core 0 with its launch as given. -/
def Checks (s : State) (w : Fetched) (ws : List Fetched) (l : Option Launch) : Prop :=
  let st := (s.core 0).stream
  Live s = true ∧ coreOf s c0 = some 0 ∧ st.tr.fetch.window = w :: ws ∧ st.st = .running ∧ ptcRuns s = true ∧ st.tr.pos = some w.addr
  ∧ headReady s st.tr.fetch = true ∧ retest s 0 = s ∧ oldDue s st = false ∧ st.waiting = none ∧ (st.tr.timed = true → st.tr.requested = false)
  ∧ frameBase st.tr + dw w.desc 1 ≤ s.ptc.toNat + 32 ∧ st.launch = l

/-- Its tick, and its indices. -/
def tickAt (s : State) (w : Fetched) : Nat := frameBase (s.core 0).stream.tr + dw w.desc 1

@[inherit_doc tickAt]
def index (s : State) : Nat × Nat := ((indices (s.core 0).stream.tr).1, (indices (s.core 0).stream.tr).2.1)

/-- Operands outside their regions, and operands of another format than their region. -/
def outside (s : State) (e : Nat × OpField) : Bool := !rangeOk s 0 e.2 (effBase s 0 e.2 (index s).1 (index s).2)

@[inherit_doc outside]
def otherFmt (s : State) (e : Nat × OpField) : Bool := e.2.space == 0 && (regionOf (s.core 0) e.2.region).fmt != e.2.fmt

/-- Its producers. -/
def prodsOf (s : State) (w : Fetched) : List Producer := producers s (s.core 0) w.desc (tickAt s w)

/-- The steps of R52 that the descriptor passes. -/
def step2 (s : State) (w : Fetched) : Prop := faultStep1 s 0 w.desc w.addr = none ∧ orderOk (s.core 0).stream.tr w.desc (tickAt s w) = true

@[inherit_doc step2]
def step3 (s : State) (w : Fetched) : Prop :=
  step2 s w ∧ (operandsOf w.desc).find? (outside s) = none ∧ (dReinterp w.desc = true ∨ (operandsOf w.desc).find? (otherFmt s) = none)

@[inherit_doc step2]
def step4 (s : State) (w : Fetched) : Prop := step3 s w ∧ tagMiss (s.core 0) w.desc = false

@[inherit_doc step2]
def step5 (s : State) (w : Fetched) : Prop :=
  step4 s w ∧ ((s.core 0).stream.tr.timed = true → (prodsOf s w).any Producer.early = false ∧ datapathFree (s.core 0) w.desc (tickAt s w) = true)
  ∧ saMismatch (s.core 0) w.desc = none

/-- The stream order after it, for `n` iterations where it is a REPEAT. -/
def afterIt (s : State) (w : Fetched) (n : Nat) : List Loop × Nat × Option Nat × Bool :=
  after (s.core 0).stream.tr w.desc (s.reg64 (strBlk 0) 0x60) w.addr (tickAt s w) n

/-- It passes all steps and no breakpoint stands at it; the next descriptor is one that HBM holds. -/
def passes5 (s : State) (w : Fetched) : Prop :=
  step5 s w ∧ isIndirect w.desc = false ∧ breakMatch s 0 w.desc = false ∧ (afterIt s w (dw w.desc 4 % 2 ^ 24)).2.2.1.all (hbmAddrOk s) = true

/-- Its late producers. -/
def latesOf (s : State) (w : Fetched) : List Producer := (prodsOf s w).filter fun p => p.fixedAt.isNone

/-- Its late items. -/
def itemsOf (s : State) (w : Fetched) (ws : List Fetched) : List (Nat × Nat × LateItem) :=
  lateItems s 0 (s.core 0).nextOp w.desc (latesOf s w) (charge s 0 w.desc (tickAt s w) true).2
    ((afterIt s w (dw w.desc 4 % 2 ^ 24)).2.2.1.isSome && !headReady s { (s.core 0).stream.tr.fetch with window := ws })

/-- The premises of AnIssueCheckFaultsOrQueuesTheDescriptor meet, for its faults. -/
theorem witness_AnIssueCheckFaultsOrQueuesTheDescriptor :
    (∃ (s : State) (w : Fetched), Checks s w [] none ∧ faultStep1 s 0 w.desc w.addr = some (1, 15)) ∧
    (∃ (s : State) (w : Fetched), Checks s w [] none ∧ faultStep1 s 0 w.desc w.addr = none ∧ orderOk (s.core 0).stream.tr w.desc (tickAt s w) = false) ∧
    (∃ (s : State) (w : Fetched) (e : Nat × OpField), Checks s w [] none ∧ step2 s w ∧ (operandsOf w.desc).find? (outside s) = some e) ∧
    (∃ (s : State) (w : Fetched) (e : Nat × OpField), Checks s w [] none ∧ step2 s w ∧ (operandsOf w.desc).find? (outside s) = none
      ∧ dReinterp w.desc = false ∧ (operandsOf w.desc).find? (otherFmt s) = some e) ∧
    (∃ (s : State) (w : Fetched), Checks s w [] none ∧ step3 s w ∧ tagMiss (s.core 0) w.desc = true) ∧
    (∃ (s : State) (w : Fetched), Checks s w [] none ∧ step4 s w ∧ (s.core 0).stream.tr.timed = true
      ∧ ((prodsOf s w).any Producer.early = true ∨ datapathFree (s.core 0) w.desc (tickAt s w) = false)) ∧
    (∃ (s : State) (w : Fetched), Checks s w [] none ∧ step4 s w ∧ saMismatch (s.core 0) w.desc = some (9, 2)
      ∧ ((prodsOf s w).any Producer.early = false ∧ datapathFree (s.core 0) w.desc (tickAt s w) = true)) ∧
    (∃ (s : State) (w : Fetched) (a : Nat), Checks s w [] none ∧ step5 s w ∧ isIndirect w.desc = false ∧ breakMatch s 0 w.desc = false
      ∧ (afterIt s w (dw w.desc 4 % 2 ^ 24)).2.2.1 = some a ∧ hbmAddrOk s a = false) := by
  unfold Checks step5 step4 step3 step2
  refine ⟨?_, ?_, ?_, ?_, ?_, ?_, ?_, ?_⟩
  · exact ⟨checking 13 (atHead (desc 15 0 0 [])), headOfWindow (desc 15 0 0 []), by decide +kernel⟩
  · exact ⟨checking 13 { atHead (desc 8 0 0 []) with tr := { (atHead (desc 8 0 0 [])).tr with prevTick := 1 } }, headOfWindow (desc 8 0 0 []),
      by decide +kernel⟩
  · exact ⟨core0Checks (lane 1 13) {}, headOfWindow (lane 1 13), (0, fld (lane 1 13) 0), by decide +kernel⟩
  · exact ⟨checking 5 (atHead (lane 1 13)), headOfWindow (lane 1 13), (0, fld (lane 1 13) 0), by decide +kernel⟩
  · exact ⟨checking 13 (atHead (desc 8 0 0 [(2, 5)])), headOfWindow (desc 8 0 0 [(2, 5)]), by decide +kernel⟩
  · exact ⟨core0Checks (lane 1 13) { regions := [(0, ⟨0, 0xC000, 13⟩)], engFree := [(2, 1)] }, headOfWindow (lane 1 13), by decide +kernel⟩
  · exact ⟨core0Checks multiplies { regions := [(0, ⟨0, 0xC000, 3⟩), (1, ⟨0, 0xC000, 15⟩)] }, headOfWindow multiplies, by decide +kernel⟩
  · exact ⟨checking 13 (atHead (desc 8 2 0 [(5, 0xFFFF)])), headOfWindow (desc 8 2 0 [(5, 0xFFFF)]), 2 ^ 32 * 0xFFFF, by decide +kernel⟩

/-- The premises of AnIssueCheckFaultsOrQueuesTheDescriptor meet, where it passes or waits. -/
theorem witness_AnIssueCheckQueuesTheDescriptor :
    (∃ (s : State) (w w1 : Fetched), Checks s w [w1] none ∧ passes5 s w ∧ (s.core 0).stream.tr.timed = true ∧ itemsOf s w [w1] = []) ∧
    (∃ (s : State) (w : Fetched), Checks s w [] none ∧ passes5 s w ∧ (s.core 0).stream.tr.timed = true
      ∧ minOn? (·.1) (itemsOf s w []) = some (4, 0, .counter 0 3 1) ∧ s.hold = none ∧ s.flt.stopped = false) ∧
    (∃ (s : State) (w : Fetched), Checks s w [] none ∧ passes5 s w ∧ (s.core 0).stream.tr.timed = false ∧ waitLate s 0 w.desc = none) ∧
    (∃ (s : State) (w : Fetched), Checks s w [] none ∧ passes5 s w ∧ (s.core 0).stream.tr.timed = false ∧ waitLate s 0 w.desc = some (0, 3, 1)) ∧
    (∃ (s : State) (w : Fetched), Checks s w [] none ∧ step5 s w ∧ isIndirect w.desc = false ∧ breakMatch s 0 w.desc = true
      ∧ (s.core 0).stream.tr.requested = false ∧ (afterIt s w (dw w.desc 4 % 2 ^ 24)).2.2.1 = none
      ∧ (s.core 0).stream.tr.timed = true ∧ itemsOf s w [] = [] ∧ s.hold = none ∧ s.flt.stopped = false) ∧
    (∃ (s : State) (w : Fetched), Checks s w [] none ∧ step5 s w ∧ isIndirect w.desc = true ∧ breakMatch s 0 w.desc = false
      ∧ (s.core 0).stream.tr.timed = true ∧ prodsOf s w = [] ∧ s.skErr = [] ∧ injectArmed s 0 = false ∧ s.landed = []
      ∧ countMeets s 0 ((resolvedAll s 0 w.desc (index s).1 (index s).2).getD 1 0) = none
      ∧ (afterIt s w (leNat (Mem.bytes s.skein (skAddr 0 ((resolvedAll s 0 w.desc (index s).1 (index s).2).getD 1 0)) 4) % 2 ^ 24)).2.2.1.all
          (hbmAddrOk s) = true) ∧
    (∃ (s : State) (w : Fetched), Checks s w [] none ∧ step5 s w ∧ isIndirect w.desc = true ∧ breakMatch s 0 w.desc = false
      ∧ (s.core 0).stream.tr.timed = true ∧ latesOf s w ≠ [] ∧ s.hold = none ∧ s.flt.stopped = false
      ∧ minOn? (·.1) (lateItems s 0 (s.core 0).nextOp w.desc (latesOf s w) [] false) = some (6, 0, .producer 0 1)) ∧
    (∃ (s : State) (w : Fetched) (l : Launch), Checks s w [] (some l) ∧ l.unchecked = false ∧ l.start ≤ tickAt s w) := by
  unfold Checks passes5 step5 step4 step3 step2
  refine ⟨?_, ?_, ?_, ?_, ?_, ?_, ?_, ?_⟩
  · exact ⟨checking 13 (withNext (desc 8 3 0 []) (atHead (lane 1 13))), headOfWindow (lane 1 13),
      { addr := 0x1040, desc := desc 8 3 0 [], gran := 1, tick := some 0 }, by decide +kernel⟩
  · exact ⟨checking 13 (atHead waits), headOfWindow waits, by decide +kernel⟩
  · exact ⟨checking 13 (untimed (atHead (lane 1 13))), headOfWindow (lane 1 13), by decide +kernel⟩
  · exact ⟨checking 13 (untimed (atHead waits)), headOfWindow waits, by decide +kernel⟩
  · exact ⟨(checking 13 (atHead (desc 8 3 0 []))).setRegN (.str 0 0) 0x40 32, headOfWindow (desc 8 3 0 []), by decide +kernel⟩
  · exact ⟨checking 13 (atHead indirectRepeat), headOfWindow indirectRepeat, by decide +kernel⟩
  · exact ⟨core0Checks (indirectRepeat.set 2 5) { regions := [(0, ⟨0, 0xC000, 13⟩)], tags := [(5, some (5, 1))], inflight := [op hostCopy (.landing 1)] },
      headOfWindow (indirectRepeat.set 2 5), by decide +kernel⟩
  · exact ⟨checking 13 { atHead (desc 8 0 0 []) with launch := some ⟨0x2000, 0, true, false⟩ }, headOfWindow (desc 8 0 0 []), ⟨0x2000, 0, true, false⟩,
      by decide +kernel⟩

/-- The premises of StreamControlsActWhenTheyIssue meet. -/
theorem witness_StreamControlsActWhenTheyIssue :
    ∀ x ∈ ([([0], desc 8 0 3 []), ([1], desc 8 1 3 []), ([2], desc 8 2 3 []), ([4], desc 8 4 3 []), ([7], desc 8 7 3 []), ([3], desc 8 3 3 []),
      ([6], desc 8 6 3 []), ([8], desc 8 8 0 [(4, 0xD3F), (6, 0x40), (7, 0x80)])] : List (List Nat × Desc)), Issues (issuing x.2) c0 0 (due x.2) 8
      x.1 :=
  by unfold Issues; decide +kernel

/-- The premises of ASignalAddsSubtractsOrSets meet. -/
theorem witness_ASignalAddsSubtractsOrSets :
    (∃ (s : State), s.pending = [] ∧ s.pins.perst = false ∧ (∀ e ∈ s.cores, e.2.inflight = []) ∧ s.rowSets = []) ∧
    (∃ (v w i : Nat), v < 2048 ∧ i < 2 ^ 64 ∧ v < w) ∧
    (∀ x ∈ ([([5], desc 8 5 0 [(4, 0x3FFF), (6, 5)])] : List (List Nat × Desc)), Issues (issuing x.2) c0 0 (due x.2) 8 x.1) := by
  refine ⟨?_, ?_, ?_⟩
  · exact ⟨{ up with rowOps := [⟨rowOrder 3 0 0, 0, 3, 0, 0x7FFFFFFF, 1, 0⟩], cores := [(0, { counters := [(3, { value := 1 })], stream := { st := .running, waiting := some (3, 1) } })] },
      by decide +kernel⟩
  · exact ⟨2046, 2047, 2 ^ 64 - 1, by decide +kernel⟩
  · exact by unfold Issues; decide +kernel

/-- The premises of VectorArithmeticAndLogicLaneByLane meet. -/
theorem witness_VectorArithmeticAndLogicLaneByLane :
    (∃ (o : Op), o.eng = 2 ∧ (fld o.desc 0).fmt = 13 ∧ dOpc o.desc ∈ [4, 132]) ∧
    (∃ (o : Op), o.eng = 2 ∧ (fld o.desc 0).fmt ≠ 13) ∧
    (∃ (o : Op) (j : Nat), o.eng = 2 ∧ dEng o.desc = 2 ∧ (dOpc o.desc < 16 ∨ 128 ≤ dOpc o.desc) ∧ fmtBits (fld o.desc 0).fmt = 32 ∧ (fld o.desc
      0).extent = (fld o.desc 2).extent ∧ j < (fld o.desc 2).extent) ∧
    (∀ x ∈ ([([1, 129], lane 1 13), ([2, 130], lane 2 13), ([3, 131], lane 3 13), ([4, 132], lane 4 13), ([5], lane 5 13), ([6], lane 6 13),
      ([8], lane 8 5), ([9], lane 9 5), ([10], lane 10 5), ([11], lane 11 5), ([12], lane 12 5), ([13], lane 13 5), ([14], lane 14 5)] : List
      (List Nat × Desc)), Issues (issuing x.2) c0 0 (due x.2) 2 x.1) := by
  refine ⟨?_, ?_, ?_, ?_⟩
  · exact ⟨op (lane 4 13) (.fixed 20), by decide +kernel⟩
  · exact ⟨op (lane 1 5) (.fixed 20), by decide +kernel⟩
  · exact ⟨adding, 0, by decide +kernel⟩
  · exact by unfold Issues; decide +kernel

/-- The premises of FunctionUnitsActElementByElement meet. -/
theorem witness_FunctionUnitsActElementByElement :
    (∃ (opc a : Nat) (m e : Int), fpVal a = XVal.fin m e ∧ (opc ∈ [16, 21, 22, 23] ∨ opc = 18 ∧ 0 ≤ m ∨ opc = 20 ∧ 0 ≤ m ∧ a ≠ 1065353216 ∨ opc
      = 19 ∧ leDyadic (128, 0) (m, e) = false ∧ leDyadic (-149, 0) (m, e) = true)) ∧
    (∃ (a : Nat) (m e : Int), fpVal a = XVal.fin m e ∧ 0 ≤ m) ∧
    (∃ (a : Nat) (m e : Int), fpVal a = XVal.fin m e ∧ leDyadic (128, 0) (m, e) = true) ∧
    (∃ (a : Nat) (m e : Int), fpVal a = XVal.fin m e ∧ leDyadic (128, 0) (m, e) = false ∧ leDyadic (-149, 0) (m, e) = false) ∧
    (∃ (op : Nat), op ∈ [16, 17, 18, 19, 20, 21, 22, 23]) ∧
    (∀ x ∈ ([([16], unary 16 13 1 []), ([17], unary 17 13 1 []), ([18], unary 18 13 1 []), ([19], unary 19 13 1 []), ([20], unary 20 13 1 []),
      ([21], unary 21 13 1 []), ([22], unary 22 13 1 []), ([23], unary 23 13 1 [])] : List (List Nat × Desc)), Issues (issuing x.2) c0 0 (due x.2)
      2 x.1) := by
  refine ⟨?_, ?_, ?_, ?_, ?_, ?_⟩
  · exact ⟨16, 0x3F800000, 8388608, -23, by decide +kernel⟩
  · exact ⟨0x40800000, 8388608, -21, by decide +kernel⟩
  · exact ⟨0x43000000, 8388608, -16, by decide +kernel⟩
  · exact ⟨0xC3160000, -9830400, -16, by decide +kernel⟩
  · exact ⟨23, by decide +kernel⟩
  · exact by unfold Issues; decide +kernel

/-- The premises of ConversionsAndReductions meet. -/
theorem witness_ConversionsAndReductions :
    (∃ (s : State) (k code n : Nat) (o : Op),
      let b : Blk := Blk.num (k / 288);
      k < 2304 ∧ 1 ≤ code ∧ code ≤ 3 ∧ 0 < n ∧ numFaultOn s k o.desc code = true ∧ s.regBit b 68 31 = false) ∧
    (∃ (s : State) (k code n : Nat) (o : Op), k < 2304 ∧ 1 ≤ code ∧ code ≤ 3 ∧ 0 < n ∧ numFaultOn s k o.desc code = false) ∧
    (∀ x ∈ ([([32], unary 32 13 1 [(15, 16)]), ([33], unary 33 13 1 [(15, 16)]), ([34], unary 34 13 1 [(15, 16)])] : List (List Nat × Desc)),
      Issues (issuing x.2) c0 0 (due x.2) 2 x.1) := by
  refine ⟨?_, ?_, ?_⟩
  · exact ⟨up.setRegN (.num 7) 0x40 3, 2303, 3, 1, adding, by decide +kernel⟩
  · exact ⟨up, 0, 3, 1, adding, by decide +kernel⟩
  · exact by unfold Issues; decide +kernel

/-- The premises of TheShaperMovesPacksAndUnpacks meet. -/
theorem witness_TheShaperMovesPacksAndUnpacks :
    (∃ (o : Op) (j : Nat),
      let len : Nat := dw o.desc 13;
      o.eng = 3 ∧ dEng o.desc = 3 ∧ dOpc o.desc = 3 ∧ j < dw o.desc 12 * len ∧ j < 2 ^ 24) ∧
    (∀ x ∈ ([([1], other 3 1 [field 0 1 13 0 0x100 16, field 1 2 13 0 0x8000 16] [(12, 16), (13, 16)]), ([2], other 3 2 [field 0 1 13 0 0x100
      16, field 1 2 13 0 0x8000 16] [(12, 16), (13, 16)]), ([3], other 3 3 [field 0 1 13 0 0x100 16, field 1 2 13 0 0x8000 16] [(12, 16), (13,
      16)]), ([16, 17, 18, 19, 20], other 3 16 [field 0 1 13 0 0x100 16, field 1 2 13 0 0x8000 16] [(12, 16), (13, 16)]), ([24], other 3 24 [field
      0 1 13 0 0x100 16, field 1 2 13 0 0x8000 16] [(12, 16), (13, 16)]), ([32], other 3 32 [field 0 1 13 0 0x100 16, field 1 2 13 0 0x8000 16]
      [(12, 16), (13, 16)])] : List (List Nat × Desc)), Issues (issuing x.2) c0 0 (due x.2) 3 x.1) := by
  refine ⟨?_, ?_⟩
  · exact ⟨reshaping, 5, by decide +kernel⟩
  · exact by unfold Issues; decide +kernel

/-- The premises of GatherScatterAndMask meet. -/
theorem witness_GatherScatterAndMask :
    (∃ (o : Op) (peek : Nat → List Byte) (j i : Nat),
      let n : Nat := 16 * (fld o.desc 0).extent;
      let r : Nat := (fld o.desc 2).extent / n;
      ∃ (e : Nat), o.eng = 4 ∧ dEng o.desc = 4 ∧ j < n ∧ dOpc o.desc = 1 ∧ i < r ∧ o.entry peek ((fld o.desc 1).extent / r) j = Entry.row e) ∧
    (∃ (o : Op) (peek : Nat → List Byte) (j i : Nat),
      let n : Nat := 16 * (fld o.desc 0).extent;
      let r : Nat := (fld o.desc 2).extent / n;
      o.eng = 4 ∧ dEng o.desc = 4 ∧ j < n ∧ dOpc o.desc = 1 ∧ i < r ∧ (∀ (e : Nat), o.entry peek ((fld o.desc 1).extent / r) j ≠ Entry.row e)) ∧
    (∃ (o : Op) (peek : Nat → List Byte) (j i : Nat),
      let n : Nat := 16 * (fld o.desc 0).extent;
      let r : Nat := (fld o.desc 1).extent / n;
      ∃ (e : Nat), o.eng = 4 ∧ dEng o.desc = 4 ∧ j < n ∧ dOpc o.desc = 2 ∧ i < r ∧ o.entry peek ((fld o.desc 2).extent / r) j = Entry.row e) ∧
    (∃ (o : Op) (peek : Nat → List Byte) (j i : Nat),
      let n : Nat := 16 * (fld o.desc 0).extent;
      let r : Nat := (fld o.desc 1).extent / n;
      o.eng = 4 ∧ dEng o.desc = 4 ∧ j < n ∧ dOpc o.desc = 2 ∧ i < r ∧ (∀ (e : Nat), o.entry peek ((fld o.desc 2).extent / r) j ≠ Entry.row e)) ∧
    (∃ (o : Op) (j : Nat),
      let n : Nat := 16 * (fld o.desc 0).extent;
      o.eng = 4 ∧ dOpc o.desc = 1 ∧ j < n ∧ (o.els 0).length = n) ∧
    (∀ x ∈ ([([1], other 4 1 [field 0 1 5 0 0x100 1, field 1 1 13 0 0x8000 64] [(12, 16)]), ([2], other 4 2 [field 0 1 5 0 0x100 1, field 1 1 13
      0 0x8000 64] [(12, 16)]), ([3], other 4 3 [field 0 1 5 0 0x100 1, field 1 1 13 0 0x8000 64] [(12, 16)])] : List (List Nat × Desc)), Issues
      (issuing x.2) c0 0 (due x.2) 4 x.1) := by
  refine ⟨?_, ?_, ?_, ?_, ?_, ?_⟩
  · exact ⟨gathering, fun _ => leBytes 4 3 ++ List.replicate 60 0, 0, 0, 3, by decide +kernel⟩
  · exact ⟨gathering, fun _ => List.replicate 64 255, 15, 0,
      by refine ⟨?_, ?_, ?_, ?_, ?_, fun e h => ?_⟩; all_goals first | decide +kernel | exact nomatch h⟩
  · exact ⟨scattering, fun _ => leBytes 4 3 ++ List.replicate 60 0, 0, 0, 3, by decide +kernel⟩
  · exact ⟨scattering, fun _ => List.replicate 64 255, 15, 0,
      by refine ⟨?_, ?_, ?_, ?_, ?_, fun e h => ?_⟩; all_goals first | decide +kernel | exact nomatch h⟩
  · exact ⟨{ gathering with seen := [(0, List.replicate 64 255)] }, 15, by decide +kernel⟩
  · exact by unfold Issues; decide +kernel

/-- The premises of TheSamplerAndTheLocalSum meet. -/
theorem witness_TheSamplerAndTheLocalSum :
    (∃ (o : Op) (j : Nat), o.eng = 5 ∧ dEng o.desc = 5 ∧ j < (fld o.desc 0).extent ∧ (fld o.desc 1).extent = (fld o.desc 0).extent) ∧
    (∀ x ∈ ([([1], other 6 1 [field 0 1 13 0 0x100 1, field 1 2 5 0 0x8000 1] [(13, 16), (15, 1)]), ([2], other 6 2 [field 0 1 13 0 0x100 1,
      field 1 2 5 0 0x8000 1] [(13, 16), (15, 1)]), ([3], other 6 3 [field 0 1 13 0 0x100 1, field 1 2 5 0 0x8000 1] [(13, 16), (15, 1)]), ([4],
      other 6 4 [field 0 1 13 0 0x100 1, field 1 2 5 0 0x8000 1] [(13, 16), (15, 1)])] : List (List Nat × Desc)), Issues (issuing x.2) c0 0 (due
      x.2) 6 x.1) ∧
    (∀ x ∈ ([([1], other 5 1 [field 0 1 15 0 0x100 1, field 1 1 15 0 0x200 1, field 2 2 15 0 0x300 1] [])] : List (List Nat × Desc)), Issues
      (issuing x.2) c0 0 (due x.2) 5 x.1) := by
  refine ⟨?_, ?_, ?_⟩
  · exact ⟨op (other 5 1 [field 0 1 15 0 0x100 2, field 1 1 15 0 0x200 2, field 2 2 15 0 0x300 2] []) (.fixed 20), 1, by decide +kernel⟩
  · exact by unfold Issues; decide +kernel
  · exact by unfold Issues; decide +kernel

/-- The premises of TheStitchArrayLoadsAndMultiplies meet. -/
theorem witness_TheStitchArrayLoadsAndMultiplies :
    (∃ (m : Mem) (k : Nat) (o : Op),
      let d : Desc := o.desc;
      let a : Nat := o.eff.getD 0 0;
      let fmt : Nat := (fld d 0).fmt;
      dOpc d = 1 ∧ a % 64 = 0 ∧ 128 ≤ loadTicks d ∧ (fmt = 0 → loadTicks d = 128) ∧ (∀ x < loadTicks d, ∀ e ∈ saAccesses d o.eff x, FMap.look
      zeroBeat o.seen e.slot = m.bytes (skAddr k e.beat) 64)) ∧
    (∃ (r : BankRun) (slot b n xw xa : Nat),
      let i : Nat := 512 * slot + 128 * b + n;
      let a : Acc := r.accs.getD i { };
      r.accs.size = 8192 ∧ slot < 16 ∧ b < 4 ∧ n < 128 ∧ xw ≠ 255 ∧ xa ≠ 255 ∧ (a.acc = 0 ∨ xw + xa = a.x)) ∧
    (∃ (r : BankRun) (slot b n xw xa : Nat),
      let i : Nat := 512 * slot + 128 * b + n;
      let a : Acc := r.accs.getD i { };
      r.accs.size = 8192 ∧ slot < 16 ∧ b < 4 ∧ n < 128 ∧ xw ≠ 255 ∧ xa ≠ 255 ∧ a.acc ≠ 0 ∧ xw + xa ≠ a.x) ∧
    (∃ (r : BankRun) (slot n j : Nat), r.ls.size = 2048 ∧ slot < 16 ∧ n < 128 ∧ j ≠ 128 * slot + n) ∧
    (∃ (d : Desc), dEng d = 1 ∧ dOpc d = 2 ∧ validDesc d = true ∧ bitOf (dw d 12) 2 = true) ∧
    (∃ (o : Op),
      let d : Desc := o.desc;
      o.eng = 1 ∧ dOpc o.desc = 2 ∧ bitOf (dw o.desc 12) 2 = true ∧ (fld d 1).fmt = 15) ∧
    (∃ (o : Op),
      let d : Desc := o.desc;
      o.eng = 1 ∧ dOpc o.desc = 2 ∧ bitOf (dw o.desc 12) 2 = true ∧ (fld d 1).fmt ≠ 15) ∧
    (∀ x ∈ ([([1], loads), ([2], multiplies)] : List (List Nat × Desc)), Issues (issuing x.2) c0 0 (due x.2) 1 x.1) := by
  refine ⟨?_, ?_, ?_, ?_, ?_, ?_, ?_, ?_⟩
  · exact ⟨[], 0, op loads (.fixed 640), by decide +kernel⟩
  · exact ⟨emptyRun, 15, 3, 127, 254, 254, by decide +kernel⟩
  · exact ⟨{ emptyRun with accs := Array.replicate 8192 { acc := 1, x := 3 } }, 0, 0, 0, 2, 2, by decide +kernel⟩
  · exact ⟨emptyRun, 15, 127, 0, by decide +kernel⟩
  · exact ⟨multiplies, by decide +kernel⟩
  · exact ⟨op multiplies (.fixed 900), by decide +kernel⟩
  · exact ⟨op (multiplies.set 9 0x80D00000) (.fixed 900), by decide +kernel⟩
  · exact by unfold Issues; decide +kernel

/-- The premises of TransfersIssueAndSumsAreSent meet (1 of 3). -/
theorem witness_TransfersIssueAndSumsAreSent :
    (∃ (s : State) (c : CoreId) (k : Nat) (q : Checked),
      let d : Desc := q.desc;
      let f0 : OpField := fld d 0;
      let f1 : OpField := fld d 1;
      Issues s c k q 0 [1] ∧ f0.space = 0 ∧ f1.space = 0) ∧
    (∃ (s : State) (c : CoreId) (k : Nat) (q : Checked),
      let d : Desc := q.desc;
      let f0 : OpField := fld d 0;
      let f1 : OpField := fld d 1;
      Issues s c k q 0 [1] ∧ f0.space = 0 ∧ f1.space = 3) ∧
    (∃ (s : State) (c : CoreId) (k : Nat) (q : Checked),
      let d : Desc := q.desc;
      let f0 : OpField := fld d 0;
      let f1 : OpField := fld d 1;
      Issues s c k q 0 [1] ∧ f0.space = 0 ∧ f1.space = 4) ∧
    (∃ (s : State) (c : CoreId) (k : Nat) (q : Checked),
      let d : Desc := q.desc;
      let f0 : OpField := fld d 0;
      let f1 : OpField := fld d 1;
      Issues s c k q 0 [1] ∧ f0.space = 0 ∧ f1.space = 1) ∧
    (∃ (s : State) (c : CoreId) (k : Nat) (q : Checked),
      let d : Desc := q.desc;
      let f0 : OpField := fld d 0;
      let f1 : OpField := fld d 1;
      Issues s c k q 0 [1] ∧ f0.space = 0 ∧ f1.space = 5) ∧
    (∃ (s : State) (c : CoreId) (k : Nat) (q : Checked),
      let d : Desc := q.desc;
      let f0 : OpField := fld d 0;
      let a : Nat := q.eff.getD 0 0;
      Issues s c k q 0 [1] ∧ f0.space = 1 ∧ domOn s (hbmPlace s a).1 9 = true) ∧
    (∃ (s : State) (c : CoreId) (k : Nat) (q : Checked),
      let d : Desc := q.desc;
      let f0 : OpField := fld d 0;
      let a : Nat := q.eff.getD 0 0;
      Issues s c k q 0 [1] ∧ f0.space = 1 ∧ (hbmPlace s a).1 < 8 ∧ domOn s (hbmPlace s a).1 9 = false) ∧
    (∃ (s : State) (c : CoreId) (k : Nat) (q : Checked),
      let d : Desc := q.desc;
      let f0 : OpField := fld d 0;
      let a : Nat := q.eff.getD 0 0;
      Issues s c k q 0 [1] ∧ f0.space = 2 ∧ domOn s (stashPanel a) 10 = true) := by
  refine ⟨?_, ?_, ?_, ?_, ?_, ?_, ?_, ?_⟩
  · exact ⟨issuing (other 0 1 [field 0 1 13 0 0x100 4, field 1 2 13 0 0x400 4] []), c0, 0, due (other 0 1 [field 0 1 13 0 0x100 4, field 1 2 13 0
      0x400 4] []), by unfold Issues; decide +kernel⟩
  · exact ⟨issuing (other 0 1 [field 0 1 13 0 0x100 4, field 1 2 13 3 0x10 4] []), c0, 0, due (other 0 1 [field 0 1 13 0 0x100 4, field 1 2 13 3 0x10
      4] []), by unfold Issues; decide +kernel⟩
  · exact ⟨issuing (rankCopy), c0, 0, due (rankCopy), by unfold Issues; decide +kernel⟩
  · exact ⟨issuing (other 0 1 [field 0 1 13 0 0x100 4, field 1 2 13 1 0x400 4] []), c0, 0, due (other 0 1 [field 0 1 13 0 0x100 4, field 1 2 13 1
      0x400 4] []), by unfold Issues; decide +kernel⟩
  · exact ⟨issuing (other 0 1 [field 0 1 13 0 0x100 4, field 1 2 13 5 0x400 4] []), c0, 0, due (other 0 1 [field 0 1 13 0 0x100 4, field 1 2 13 5
      0x400 4] []), by unfold Issues; decide +kernel⟩
  · exact ⟨issuing (other 0 1 [field 0 1 13 1 0x100 4, field 1 2 13 0 0x400 4] []), c0, 0, due (other 0 1 [field 0 1 13 1 0x100 4, field 1 2 13 0
      0x400 4] []), by unfold Issues; decide +kernel⟩
  · exact ⟨(issuing (other 0 1 [field 0 1 13 1 0x100 4, field 1 2 13 0 0x400 4] [])).setDom 0 9 { st := .off }, c0, 0, due (other 0 1 [field 0 1 13 1
      0x100 4, field 1 2 13 0 0x400 4] []), by unfold Issues; decide +kernel⟩
  · exact ⟨issuing (other 0 1 [field 0 1 13 2 0 64, field 1 2 13 0 0x400 64] []), c0, 0, due (other 0 1 [field 0 1 13 2 0 64, field 1 2 13 0 0x400 64]
      []), by unfold Issues; decide +kernel⟩

/-- The premises of TransfersIssueAndSumsAreSent meet (2 of 3). -/
theorem witness_TransfersIssueAndSumsAreSent_2 :
    (∃ (s : State) (c : CoreId) (k : Nat) (q : Checked),
      let d : Desc := q.desc;
      let f0 : OpField := fld d 0;
      let a : Nat := q.eff.getD 0 0;
      Issues s c k q 0 [1] ∧ f0.space = 5 ∧ (FMap.look { } s.fns (hostFn a)).bme = true) ∧
    (∃ (s : State) (c : CoreId) (k : Nat) (q : Checked),
      let d : Desc := q.desc;
      let f0 : OpField := fld d 0;
      let a : Nat := q.eff.getD 0 0;
      let n : Nat := f0.extent;
      Issues s c k q 0 [1] ∧ f0.space = 5 ∧ (FMap.look { } s.fns (hostFn a)).bme = false ∧ usesHost d = true ∧ 0 < n ∧ (s.core k).ret = [] ∧
      (s.core k).hostQ = [] ∧ (∀ o ∈ (s.core k).inflight, o.id ≠ q.id)) ∧
    (∃ (s : State) (c : CoreId) (k : Nat) (q : Checked),
      let d : Desc := q.desc;
      let f0 : OpField := fld d 0;
      let a : Nat := q.eff.getD 0 0;
      Issues s c k q 0 [4] ∧ f0.space = 1 ∧ domOn s (hbmPlace s a).1 9 = true) ∧
    (∃ (s : State) (c : CoreId) (k : Nat) (q : Checked),
      let d : Desc := q.desc;
      let f0 : OpField := fld d 0;
      let a : Nat := q.eff.getD 0 0;
      Issues s c k q 0 [4] ∧ f0.space = 2 ∧ domOn s (stashPanel a) 10 = true) ∧
    (∃ (s : State) (c : CoreId) (k : Nat) (q : Checked),
      let d : Desc := q.desc;
      Issues s c k q 5 [2] ∧ (sendField d).space = 3) ∧
    (∃ (s : State) (c : CoreId) (k : Nat) (q : Checked),
      let d : Desc := q.desc;
      Issues s c k q 5 [2] ∧ (sendField d).space ≠ 3) ∧
    (∃ (fuel a n : Nat), n ≤ fuel ∧ a % 64 = 0) ∧
    (∃ (fuel a n : Nat) (e : Nat × Nat), a % 64 = 0 ∧ e ∈ granuleParts fuel a n) := by
  refine ⟨?_, ?_, ?_, ?_, ?_, ?_, ?_, ?_⟩
  · exact ⟨{ issuing hostCopy with fns := [(0, { bme := true })] }, c0, 0, due (hostCopy), by unfold Issues; decide +kernel⟩
  · exact ⟨issuing (hostCopy), c0, 0, due (hostCopy), by unfold Issues; decide +kernel⟩
  · exact ⟨issuing (other 0 4 [field 0 1 13 1 0x100 4] []), c0, 0, due (other 0 4 [field 0 1 13 1 0x100 4] []), by unfold Issues; decide +kernel⟩
  · exact ⟨issuing (other 0 4 [field 0 1 13 2 0 64] []), c0, 0, due (other 0 4 [field 0 1 13 2 0 64] []), by unfold Issues; decide +kernel⟩
  · exact ⟨issuing (other 5 2 [field 0 1 15 0 0x100 2, field 1 3 15 0 0x200 2] [(12, 0x30000), (14, 0x10)]), c0, 0, due (other 5 2 [field 0 1 15 0
      0x100 2, field 1 3 15 0 0x200 2] [(12, 0x30000), (14, 0x10)]), by unfold Issues; decide +kernel⟩
  · exact ⟨issuing (other 5 2 [field 0 1 15 0 0x100 4, field 1 3 15 0 0x200 4] [(12, 0x40000), (14, 0x10)]), c0, 0, due (other 5 2 [field 0 1 15 0
      0x100 4, field 1 3 15 0 0x200 4] [(12, 0x40000), (14, 0x10)]), by unfold Issues; decide +kernel⟩
  · exact ⟨6, 0x1C0, 6, by decide +kernel⟩
  · exact ⟨6, 0x1C0, 6, (0x200, 4), by decide +kernel⟩

/-- The premises of TransfersIssueAndSumsAreSent meet (3 of 3). -/
theorem witness_TransfersIssueAndSumsAreSent_3 :
    (∃ (o : Op), o.eng = 0 ∧ dOpc o.desc = 1 ∧ (fld o.desc 0).space = 0 ∧ (∀ (g : Option (List Word × Nat)) (v : Bool), o.work ≠ Work.rank g v)) ∧
    (∃ (s : State) (o : Op),
      let d : Desc := o.desc;
      let f1 : OpField := fld d 1;
      let b : Nat := o.eff.getD 1 0;
      ∃ (beats : FMap (List Byte)), f1.space = 5 ∧ o.work = Work.hostOut beats ∧ (FMap.look { } s.fns (hostFn b)).bme = true) ∧
    (∃ (o : Op),
      let d : Desc := o.desc;
      dOpc d = 2 ∧ (sendField d).space = 3) ∧
    (∃ (s : State) (k v j : Nat), physOf s v = some j ∧ coreOn s j = true ∧ (j / 288 = k / 288 ∨ d2dBetween (k / 288) (j / 288) = none)) ∧
    (∃ (s : State) (k v j m : Nat), physOf s v = some j ∧ coreOn s j = true ∧ j / 288 ≠ k / 288 ∧ d2dBetween (k / 288) (j / 288) = some m) ∧
    (∀ x ∈ ([([2], other 0 2 [field 0 1 5 0 0x100 1, field 1 1 13 1 0x4000 16, field 2 2 13 0 0x8000 64] [(7, 0)]), ([3], other 0 3 [field 0 1 5
      0 0x100 1, field 1 1 13 0 0x4000 16, field 2 2 13 1 0x8000 64] [(7, 0)])] : List (List Nat × Desc)), Issues (issuing x.2) c0 0 (due x.2) 0
      x.1) := by
  refine ⟨?_, ?_, ?_, ?_, ?_, ?_⟩
  · exact ⟨op (other 0 1 [field 0 1 13 0 0x100 4, field 1 2 13 0 0x400 4] []) (.fixed 12), by refine ⟨?_, ?_, ?_, nofun⟩ <;> decide +kernel⟩
  · exact ⟨{ up with fns := [(0, { bme := true })] }, op (other 0 1 [field 0 1 13 0 0x100 4, field 1 2 13 5 0x400 4] []) (.hostOut [(1, [])]), [(1,
      [])], by decide +kernel⟩
  · exact ⟨op (other 5 2 [field 0 1 15 0 0x100 2, field 1 3 15 0 0x200 2] [(12, 0x30000), (14, 0x10)]) (.fixed 12), by decide +kernel⟩
  · exact ⟨up, 0, 255, 285, by decide +kernel⟩
  · exact ⟨up, 0, 256, 288, 0, by decide +kernel⟩
  · exact by unfold Issues; decide +kernel

/-- The premises of CompletionsLandAndSignal meet (1 of 2). -/
theorem witness_CompletionsLandAndSignal :
    (∃ (d : Desc),
      let w : Nat := dw d 12;
      w % 16 = 0) ∧
    (∃ (d : Desc) (data : List Byte),
      let w : Nat := dw d 12;
      let e : Nat := (fld d 0).extent;
      let inb : Nat := dw d 13;
      let mb : Nat := ceilDiv e 512;
      let ones : List Nat := setBitsOf (512 * mb) (leNat (List.take (64 * mb) data));
      ∃ (i : Nat), w % 16 = 1 ∧ data.length = 64 * inb ∧ inb = mb + ones.length ∧ (∀ i ∈ ones, i < e) ∧ i < e) ∧
    (∃ (d : Desc) (data : List Byte),
      let w : Nat := dw d 12;
      let e : Nat := (fld d 0).extent;
      let inb : Nat := dw d 13;
      let mb : Nat := ceilDiv e 512;
      let ones : List Nat := setBitsOf (512 * mb) (leNat (List.take (64 * mb) data));
      w % 16 = 1 ∧ (inb ≠ mb + ones.length ∨ ∃ i ∈ ones, e ≤ i)) ∧
    (∃ (d : Desc) (data : List Byte),
      let w : Nat := dw d 12;
      let fmt : Nat := (fld d 0).fmt;
      ∃ (j kk n : Nat), w % 16 = 2 ∧ 512 ≤ data.length ∧ (∀ i < 4096, have v := BitVec.toNat (data.getD (512 + i / 2) 0) / 16 ^ (i % 2) % 16; v %
      4 < v / 4) ∧ j < storedPlanes fmt (bits w 8 3) ∧ kk < 128 ∧ n < 128) ∧
    (∃ (d : Desc) (t1 : Bool),
      let w : Nat := dw d 12;
      let fmt : Nat := (fld d 0).fmt;
      w % 16 = 3 ∧ (t1 = false ∨ fmt ≠ 0)) ∧
    (∃ (s : State) (k : Nat) (o : Op) (x : Expanded) (i : Nat),
      let b : Blk := Blk.eng (k / 288);
      k < 2304 ∧ o.eng = 7 ∧ x.bad = some i ∧ s.regBit b 64 31 = false) ∧
    (∃ (o : Op), o.work = Work.expand none) ∧
    (∃ (s : State) (c : CoreId) (k : Nat),
      let co : Core := s.core k;
      ∃ (b : RetBeat), Live s = true ∧ coreOf s c = some k ∧ (s.core k).zeroQ = [] ∧ (s.core k).hostQ = [] ∧ co.ret = [b] ∧ b.fifo = false ∧
      b.ready ≤ s.wall ∧ co.landings = [] ∧ co.collBuf = [] ∧ co.landedAt ≠ s.wall + 1) := by
  refine ⟨?_, ?_, ?_, ?_, ?_, ?_, ?_, ?_⟩
  · exact ⟨other 7 1 [field 0 2 13 0 0x100 2] [(13, 2)], by decide +kernel⟩
  · exact ⟨other 7 1 [field 0 2 13 0 0x100 2] [(12, 1), (13, 2)], leBytes 64 2 ++ List.replicate 64 9, 1, by decide +kernel⟩
  · exact ⟨other 7 1 [field 0 2 13 0 0x100 2] [(12, 1), (13, 2)], leBytes 64 4 ++ List.replicate 64 9, by decide +kernel⟩
  · exact ⟨other 7 1 [field 0 2 9 0 0x100 1536] [(12, 0x102), (13, 104)], List.replicate 512 0 ++ List.replicate 6144 0x44, 0, 127, 127,
      by refine ⟨?_, ?_, nibbles, ?_⟩ <;> decide +kernel⟩
  · exact ⟨other 7 1 [field 0 2 9 0 0x100 1536] [(12, 0x103), (13, 256)], false, by decide +kernel⟩
  · exact ⟨up, 2303, op (other 7 1 [] []) (.expand none), ⟨[], some 0, []⟩, 0, by decide +kernel⟩
  · exact ⟨{ op (other 7 1 [field 0 2 13 0 0x100 2] [(13, 2)]) (.expand none) with feedNext := 2 }, by decide +kernel⟩
  · exact ⟨core { ret := [stray] }, c0, 0, stray, by decide +kernel⟩

/-- The premises of CompletionsLandAndSignal meet (2 of 2). -/
theorem witness_CompletionsLandAndSignal_2 :
    (∃ (s : State) (c : CoreId) (k : Nat),
      let co : Core := s.core k;
      ∃ (x y : Landing), Live s = true ∧ coreOf s c = some k ∧ (s.core k).zeroQ = [] ∧ (s.core k).hostQ = [] ∧ co.landings = [x, y] ∧ x.ptc =
      y.ptc ∧ x.ptc ≤ BitVec.toNat s.ptc ∧ x.port < y.port ∧ y.port < 4096 ∧ co.collBuf = [] ∧ co.landedAt ≠ s.wall + 1 ∧ ptcRuns s = true ∧ (∀ b
      ∈ co.ret, b.fifo = false)) ∧
    (∃ (s : State) (c : CoreId) (k : Nat),
      let co : Core := s.core k;
      ∃ (o : Op), Live s = true ∧ coreOf s c = some k ∧ (s.core k).zeroQ = [] ∧ (s.core k).hostQ = [] ∧ co.inflight = [o] ∧ o.done = none ∧
      o.varLat = true ∧ workDone s k o = true ∧ co.ret = []) ∧
    (∃ (s : State) (c : CoreId) (k : Nat),
      let co : Core := s.core k;
      ∃ (o : Op), Live s = true ∧ coreOf s c = some k ∧ (s.core k).zeroQ = [] ∧ (s.core k).hostQ = [] ∧ List.find? (fun o => o.input &&
      !o.digestDone) co.inflight = some o ∧ o.work = Work.landing 0) ∧
    (∃ (dur : Nat) (o : Op) (g : Sig), o.work = Work.fixed dur ∧ o.sig = some g) ∧
    (∀ x ∈ ([([1], other 7 1 [field 0 2 13 0 0x100 2] [(13, 2)])] : List (List Nat × Desc)), Issues (issuing x.2) c0 0 (due x.2) 7 x.1) := by
  refine ⟨?_, ?_, ?_, ?_, ?_⟩
  · exact ⟨core { landings := [⟨0, 0, 0x100, List.replicate 64 0, none, 0⟩, ⟨0, 4095, 0x200, List.replicate 64 4095, none, 0⟩] }, c0, 0, ⟨0, 0, 0x100,
      List.replicate 64 0, none, 0⟩, ⟨0, 4095, 0x200, List.replicate 64 4095, none, 0⟩, by decide +kernel⟩
  · exact ⟨flying (op hostCopy (.landing 0)), c0, 0, op hostCopy (.landing 0), by decide +kernel⟩
  · exact ⟨flying { op hostCopy (.landing 0) with input := true }, c0, 0, { op hostCopy (.landing 0) with input := true }, by decide +kernel⟩
  · exact ⟨12, { op hostCopy (.fixed 12) with age := 11, sig := some ⟨0, 4095, 1⟩ }, ⟨0, 4095, 1⟩, by decide +kernel⟩
  · exact by unfold Issues; decide +kernel

/-- The premises of HostWindowsFailuresAndDrainedStreams meet. -/
theorem witness_HostWindowsFailuresAndDrainedStreams :
    (∃ (s : State) (e : Nat × Nat × Nat), Live s = true ∧ s.regBit Blk.host 76 31 = true ∧ openWindows s < s.regN Blk.host 76 % 256 ∧ minOn?
      (waitKey s) (List.filter (fun e => !waitsOnD3 s e.2.1 e.2.2) s.hostWaits) = some e) ∧
    (∃ (s : State), Live s = true ∧ (s.regBit Blk.host 76 31 = false ∨ s.regN Blk.host 76 % 256 ≤ openWindows s)) ∧
    (∃ (s : State) (c : CoreId) (k op first count : Nat) (o : Op), Live s = true ∧ coreOf s c = some k ∧ List.find? (fun o => o.id == op)
      (s.core k).inflight = some o ∧ hostOutstanding (s.core k) o first count = true) ∧
    (∃ (s : State) (c : CoreId) (k op first count : Nat) (o : Op), Live s = true ∧ coreOf s c = some k ∧ List.find? (fun o => o.id == op)
      (s.core k).inflight = some o ∧ hostOutstanding (s.core k) o first count = false) ∧
    (∃ (s : State) (c : CoreId) (k : Nat) (e : DWord × DWord), Live s = true ∧ coreOf s c = some k ∧ (s.core k).stream.ended = some e ∧ drained
      (s.core k) = true) ∧
    (∃ (s : State) (c : CoreId) (k : Nat) (e : DWord × DWord), Live s = true ∧ coreOf s c = some k ∧ (s.core k).stream.ended = some e ∧ drained
      (s.core k) = false) := by
  refine ⟨?_, ?_, ?_, ?_, ?_, ?_⟩
  · exact ⟨{ up.setRegN .host 0x4C (2 ^ 31 + 1) with hostWaits := [(0, 0, 1)] }, (0, 0, 1), by decide +kernel⟩
  · exact ⟨up.setRegN .host 0x4C 4, by decide +kernel⟩
  · exact ⟨hostReading, c0, 0, 1, 0, 1, op hostCopy (.landing 1), by decide +kernel⟩
  · exact ⟨hostWaiting, c0, 0, 1, 0, 2, op hostCopy (.landing 1), by decide +kernel⟩
  · exact ⟨core { stream := { ended := some (3, 9) } }, c0, 0, (3, 9), by decide +kernel⟩
  · exact ⟨core { stream := { ended := some (3, 9) }, inflight := [op hostCopy (.landing 1)] }, c0, 0, (3, 9), by decide +kernel⟩

/-- The premises of TheSkeinsOwnEvents meet. -/
theorem witness_TheSkeinsOwnEvents :
    (∃ (s : State) (c : CoreId) (k bank : Nat) (e : Nat × List Byte), Live s = true ∧ coreOf s c = some k ∧ landingPortFree s k = true ∧
      List.find? (fun x => x.1 / 64 % 32 == bank) (s.core k).wb = some e) ∧
    (∃ (s : State) (c : CoreId) (k : Nat), Live s = true ∧ coreOf s c = some k ∧ landingPortFree s k = false) ∧
    (∃ (s : State) (c : CoreId) (k : Nat),
      let pos : Nat := FMap.look 0 s.scrubPos (k / 288);
      let due : Bool := decide (FMap.look 0 s.scrubFrom (k / 288) + scrubInterval s (k / 288) ≤ s.wall);
      let here : Bool := decide ((s.core k).scrubbed = pos + 1);
      let n : Nat := if (here && due) = true then pos + 1 else pos;
      ∃ (a : Nat),
      let word : Nat := a - a % 8;
      Live s = true ∧ coreOf s c = some k ∧ domOn s (k / 288) (k % 288 / 36) = true ∧ s.skErr = [] ∧ s.landed = [] ∧ a / 64 = n % 49152 ∧ (here &&
      !due) = false ∧ (List.filter (fun x => x.1 / 64 % 32 == word / 64 % 32) (s.core k).wb).length < 4) ∧
    (∃ (s : State) (c : CoreId) (k p : Nat) (w : Word), Live s = true ∧ coreOf s c = some k ∧ p < s.fuses.panels ∧ hasReserved ((Blk.skn
      p).fields 92) (BitVec.toNat w) = false) ∧
    (∃ (s : State) (c : CoreId) (k p : Nat) (w : Word), Live s = true ∧ coreOf s c = some k ∧ p < s.fuses.panels ∧ hasReserved ((Blk.sa
      p).fields 84) (BitVec.toNat w) = false) := by
  refine ⟨?_, ?_, ?_, ?_, ?_⟩
  · exact ⟨core { wb := [(0x7C8, List.replicate 8 5)] }, c0, 0, 31, (0x7C8, List.replicate 8 5), by decide +kernel⟩
  · exact ⟨core { wb := [(0x7C8, List.replicate 8 5)], landedAt := 1 }, c0, 0, by decide +kernel⟩
  · exact ⟨up, c0, 0, 63, by decide +kernel⟩
  · exact ⟨up, c0, 0, 7, 0x80000000, by decide +kernel⟩
  · exact ⟨up, c0, 0, 7, 0x80000000, by decide +kernel⟩

/-- The premises of AGranuleStartsInOrder meet. -/
theorem witness_AGranuleStartsInOrder :
    (∃ (s : State) (p st pc : Nat),
      let h : HbmStack := s.hbmStack p st;
      ∃ (g : Granule),
      let bank : Nat := (hbmPlace s g.dev).2.2.2;
      Live s = true ∧ writable s (Blk.hbm p st) = true ∧ minOn? Granule.key (waitingOn s p st pc) = some g ∧ stackFree s p st = true ∧ spacingOk s
      h pc bank = true ∧ roomFor s g = true) ∧
    (∃ (s : State) (p st pc : Nat),
      let h : HbmStack := s.hbmStack p st;
      ∃ (g : Granule),
      let bank : Nat := (hbmPlace s g.dev).2.2.2;
      Live s = true ∧ writable s (Blk.hbm p st) = true ∧ minOn? Granule.key (waitingOn s p st pc) = some g ∧ (stackFree s p st = false ∨ spacingOk
      s h pc bank = false ∨ roomFor s g = false)) ∧
    (∃ (s : State) (p st pc : Nat), Live s = true ∧ writable s (Blk.hbm p st) = true ∧ waitingOn s p st pc = []) := by
  refine ⟨?_, ?_, ?_⟩
  · exact ⟨granuleWaits .fetch, 0, 0, 0, granule .fetch, by decide +kernel⟩
  · exact ⟨up.setHbmStack 0 0 { queue := [granule .fetch], refreshUntil := 9 }, 0, 0, 0, granule .fetch, by decide +kernel⟩
  · exact ⟨up, 0, 0, 31, by decide +kernel⟩

/-- The premises of HbmStacksRefreshScrubAndChangeMode meet (1 of 2). -/
theorem witness_HbmStacksRefreshScrubAndChangeMode :
    (∃ (s : State) (p st : Nat),
      let h : HbmStack := s.hbmStack p st;
      Live s = true ∧ writable s (Blk.hbm p st) = true ∧ atPtc s p st (s.regN (Blk.hbm p st) 68) (s.regN (Blk.hbm p st) 72) = true ∧ h.windowFrom
      ≠ s.wall + 1) ∧
    (∃ (s : State) (p st : Nat),
      let h : HbmStack := s.hbmStack p st;
      Live s = true ∧ writable s (Blk.hbm p st) = true ∧ planned s p st = false ∧ h.freeSince + 1950 * (h.freeRefs + 1) ≤ BitVec.toNat s.time) ∧
    (∃ (s : State) (p st : Nat),
      let h : HbmStack := s.hbmStack p st;
      let position : State → Nat → Nat := fun t pc => FMap.look 0 (t.hbmStack p st).scrubPos pc;
      ∃ (pc : Nat), Live s = true ∧ writable s (Blk.hbm p st) = true ∧ planned s p st = false ∧ pc < 32 ∧ stackFree s p st = true ∧ waitingOn s p
      st pc = [] ∧ spacingOk s h pc (hbmPlace s (scrubAddr s p st pc (position s pc))).2.2.2 = true) ∧
    (∃ (s : State) (p st : Nat),
      let h : HbmStack := s.hbmStack p st;
      let slot : Prop := atPtc s p st (2 ^ s.regN (Blk.hbm p st) 76) (s.regN (Blk.hbm p st) 80) = true ∧ h.slotUntil ≤ s.wall;
      Live s = true ∧ writable s (Blk.hbm p st) = true ∧ slot ∧ (∀ pc < 32, List.filter Granule.isHost (arrivedOn s p st pc) = [])) ∧
    (∃ (s : State) (p st : Nat),
      let h : HbmStack := s.hbmStack p st;
      let slot : Prop := atPtc s p st (2 ^ s.regN (Blk.hbm p st) 76) (s.regN (Blk.hbm p st) 80) = true ∧ h.slotUntil ≤ s.wall;
      let granules : Nat := (slotTicks s p st (s.regN (Blk.hbm p st) 84)).length / tG s;
      ∃ (pc : Nat) (g : Granule) (bs : List Byte), Live s = true ∧ writable s (Blk.hbm p st) = true ∧ slot ∧ 0 < granules ∧ pc < 32 ∧ List.filter
      Granule.isHost (arrivedOn s p st pc) = [g] ∧ g.kind = GranuleKind.hostWrite bs ∧ writesBefore h g.dev g.key = [] ∧ (∀ q < 32, q ≠ pc →
      List.filter Granule.isHost (arrivedOn s p st q) = [])) ∧
    (∃ (s : State) (p st : Nat), Live s = true ∧ writable s (Blk.hbm p st) = true ∧ timedRuns s = false ∧ phasesOk s p st = true) ∧
    (∃ (s : State) (p st : Nat), Live s = true ∧ writable s (Blk.hbm p st) = true ∧ (timedRuns s = true ∨ phasesOk s p st = false)) ∧
    (∃ (s : State) (p st : Nat), Live s = true ∧ writable s (Blk.hbm p st) = true ∧ timedRuns s = false ∧ planned s p st = true) := by
  refine ⟨?_, ?_, ?_, ?_, ?_, ?_, ?_, ?_⟩
  · exact ⟨{ plannedStack with ptc := 512 }, 0, 0, by decide +kernel⟩
  · exact ⟨{ up with time := 1950 }, 0, 2, by decide +kernel⟩
  · exact ⟨up, 0, 2, 31, by decide +kernel⟩
  · exact ⟨plannedStack, 0, 0, by decide +kernel⟩
  · exact ⟨plannedStack.setHbmStack 0 0 { queue := [granule (.hostWrite [7])] }, 0, 0, 0, granule (.hostWrite [7]), [7], by decide +kernel⟩
  · exact ⟨up, 0, 0, by decide +kernel⟩
  · exact ⟨timedRun up, 0, 0, by decide +kernel⟩
  · exact ⟨plannedStack, 0, 0, by decide +kernel⟩

/-- The premises of HbmStacksRefreshScrubAndChangeMode meet (2 of 2). -/
theorem witness_HbmStacksRefreshScrubAndChangeMode_2 :
    (∃ (s : State) (p st : Nat), Live s = true ∧ writable s (Blk.hbm p st) = true ∧ timedRuns s = true) ∧
    (∃ (s : State) (p st : Nat) (w : Word), Live s = true ∧ writable s (Blk.hbm p st) = true ∧ hasReserved ((Blk.hbm p st).fields 116)
      (BitVec.toNat w) = false) := by
  refine ⟨?_, ?_⟩
  · exact ⟨timedRun plannedStack, 0, 0, by decide +kernel⟩
  · exact ⟨up, 0, 2, 0x80000000, by decide +kernel⟩

/-- The premises of Bar4ReachesTheHbm meet. -/
theorem witness_Bar4ReachesTheHbm :
    (∃ (s : State) (off : Nat), Live s = true ∧ 2 ^ (s.regN Blk.mem 72 % 64) ≤ off) ∧
    (∃ (s : State) (off : Nat), Live s = true ∧ off < 2 ^ (s.regN Blk.mem 72 % 64)) ∧
    (∃ (a n : Nat),
      let ps : List (Nat × Nat) := byteParts n a n;
      ∃ (e : Nat × Nat), e ∈ ps) ∧
    (∃ (a n : Nat),
      let ps : List (Nat × Nat) := byteParts n a n;
      ∃ (i : Nat), i + 1 < ps.length) := by
  refine ⟨?_, ?_, ?_, ?_⟩
  · exact ⟨up, 2 ^ 36, by decide +kernel⟩
  · exact ⟨up, 2 ^ 36 - 1, by decide +kernel⟩
  · exact ⟨0xFF, 3, (0xFF, 1), by decide +kernel⟩
  · exact ⟨0xFF, 300, 1, by decide +kernel⟩

/-- The premises of ChartFetchTouchesOnlyItsFetch meet. -/
theorem witness_ChartFetchTouchesOnlyItsFetch :
    (∃ (s : State) (c : CoreId) (k : Nat),
      let tr : State → Track := fun t => (t.core k).stream.tr;
      ∃ (a : Nat), Live s = true ∧ coreOf s c = some k ∧ s.flt.stopped = false ∧ s.clk.switching = none ∧ (s.core k).stream.old = none ∧
      fetchWants s (s.core k).stream (tr s).fetch = some a ∧ domOn s (hbmPlace s a).1 9 = true) ∧
    (∃ (s : State) (c : CoreId) (k : Nat),
      let tr : State → Track := fun t => (t.core k).stream.tr;
      ∃ (a : Nat), Live s = true ∧ coreOf s c = some k ∧ s.flt.stopped = false ∧ s.clk.switching = none ∧ (s.core k).stream.old = none ∧
      fetchWants s (s.core k).stream (tr s).fetch = some a ∧ domOn s (hbmPlace s a).1 9 = false) ∧
    (∃ (s : State) (c : CoreId) (k : Nat),
      let tr : State → Track := fun t => (t.core k).stream.tr;
      ∃ (g : FetchGranule) (r : Nat), Live s = true ∧ coreOf s c = some k ∧ (s.core k).stream.old = none ∧ (tr s).fetch.out = [g] ∧ g.ready = some
      r ∧ r ≤ s.wall ∧ g.bytes = g.guess) ∧
    (∃ (s : State) (c : CoreId) (k : Nat),
      let tr : State → Track := fun t => (t.core k).stream.tr;
      ∃ (g : FetchGranule) (r : Nat), Live s = true ∧ coreOf s c = some k ∧ (s.core k).stream.old = none ∧ (tr s).fetch.out = [g] ∧ g.ready = some
      r ∧ r ≤ s.wall ∧ g.bytes ≠ g.guess ∧ g.addr ≤ g.entry ∧ g.entry < g.addr + 256) := by
  refine ⟨?_, ?_, ?_, ?_⟩
  · exact ⟨fetching [], c0, 0, 0, by decide +kernel⟩
  · exact ⟨(fetching []).setDom 0 9 { st := .off }, c0, 0, 0, by decide +kernel⟩
  · exact ⟨fetching [fetchedGranule chartBytes chartBytes], c0, 0, fetchedGranule chartBytes chartBytes, 0, by decide +kernel⟩
  · exact ⟨fetching [fetchedGranule [] chartBytes], c0, 0, fetchedGranule [] chartBytes, 0, by decide +kernel⟩

/-- The premises of StashCommandsStartOneAtATimeAndEnd meet. -/
theorem witness_StashCommandsStartOneAtATimeAndEnd :
    (∃ (s : State) (p : Nat), Live s = true ∧ writable s (Blk.sts p) = true ∧ (s.stash p).cmd = none) ∧
    (∃ (s : State) (p : Nat), Live s = true ∧ writable s (Blk.sts p) = true ∧ (s.stash p).cmd ≠ none) ∧
    (∃ (s : State) (p : Nat) (c : StsCmd), Live s = true ∧ writable s (Blk.sts p) = true ∧ (s.stash p).cmd = some c ∧ stsRangeOk s p c = false) ∧
    (∃ (s : State) (p : Nat) (c : StsCmd),
      let hbmOn : Prop := domOn s (hbmPlace s c.haddr).1 9 = true;
      ∃ (i : Nat), Live s = true ∧ writable s (Blk.sts p) = true ∧ (s.stash p).cmd = some c ∧ stsRangeOk s p c = true ∧ c.op = 1 ∧ hbmOn ∧ i <
      c.pages) ∧
    (∃ (s : State) (p : Nat) (c : StsCmd), Live s = true ∧ writable s (Blk.sts p) = true ∧ (s.stash p).cmd = some c ∧ stsRangeOk s p c = true ∧
      c.op = 3) ∧
    (∃ (s : State) (p : Nat) (c : StsCmd),
      let hbmOn : Prop := domOn s (hbmPlace s c.haddr).1 9 = true;
      Live s = true ∧ writable s (Blk.sts p) = true ∧ (s.stash p).cmd = some c ∧ stsRangeOk s p c = true ∧ c.op = 5 ∧ hbmOn) := by
  refine ⟨?_, ?_, ?_, ?_, ?_, ?_⟩
  · exact ⟨up, 1, by decide +kernel⟩
  · exact ⟨stashRuns ⟨1, 0, 0, 1⟩, 0, by decide +kernel⟩
  · exact ⟨stashRuns ⟨1, 4096, 0, 0⟩, 0, ⟨1, 4096, 0, 0⟩, by decide +kernel⟩
  · exact ⟨stashRuns ⟨1, 0, 0, 1⟩, 0, ⟨1, 0, 0, 1⟩, 0, by decide +kernel⟩
  · exact ⟨stashRuns ⟨3, 0, 0, 8192⟩, 0, ⟨3, 0, 0, 8192⟩, by decide +kernel⟩
  · exact ⟨stashRuns ⟨5, 0, 0, 1⟩, 0, ⟨5, 0, 0, 1⟩, by decide +kernel⟩

/-- The premises of StashPagesDecodeDeliverAndScrub meet. -/
theorem witness_StashPagesDecodeDeliverAndScrub :
    (∃ (s : State) (p : Nat),
      let x : Stash := s.stash p;
      ∃ (r : StashReq), Live s = true ∧ writable s (Blk.sts p) = true ∧ x.reqs = [r] ∧ r.decoded = none ∧ r.arrival ≤ s.wall) ∧
    (∃ (s : State) (p : Nat),
      let x : Stash := s.stash p;
      ∃ (r : StashReq),
      let early : Bool := x.lastDeliver != 0 && decide (10 * (BitVec.toNat s.time - (x.lastDeliver - 1)) < 256);
      Live s = true ∧ writable s (Blk.sts p) = true ∧ minOn? StashReq.deliverKey (List.filter (fun r => r.decoded.isSome) x.reqs) = some r ∧ early
      = false ∧ 64 ≤ bufferRoom (s.core r.core) false) ∧
    (∃ (s : State) (p : Nat),
      let x : Stash := s.stash p;
      ∃ (r : StashReq),
      let early : Bool := x.lastDeliver != 0 && decide (10 * (BitVec.toNat s.time - (x.lastDeliver - 1)) < 256);
      Live s = true ∧ writable s (Blk.sts p) = true ∧ minOn? StashReq.deliverKey (List.filter (fun r => r.decoded.isSome) x.reqs) = some r ∧
      (early = true ∨ bufferRoom (s.core r.core) false < 64)) ∧
    (∃ (s : State) (p blk : Nat), Live s = true ∧ writable s (Blk.sts p) = true ∧ blk < 8192) := by
  refine ⟨?_, ?_, ?_, ?_⟩
  · exact ⟨up.setStash 0 { reqs := [pageReq none] }, 0, pageReq none, by decide +kernel⟩
  · exact ⟨decodedPage {}, 0, pageReq (some 0), by decide +kernel⟩
  · exact ⟨decodedPage { lastDeliver := 1 }, 0, pageReq (some 0), by decide +kernel⟩
  · exact ⟨up, 1, 8191, by decide +kernel⟩

/-- The premises of ArrivalsCollectAtTheirNode meet. -/
theorem witness_ArrivalsCollectAtTheirNode :
    (∃ s : State, Live s = true ∧ s.castSt ≠ .idle) ∧
    (∃ s : State, Live s = true ∧ s.castSt = .idle ∧ s.bind ≠ none) ∧
    (∃ s, Arrives s .castCtrlArrive 0 1 none ∧ takesArrival s 0 1 = true ∧ missingAfter s 0 1 none ≠ 0) ∧
    (∃ s i, Arrives s i 0 2 (some (.node 0)) ∧ takesArrival s 0 2 = true ∧ missingAfter s 0 2 (some (.node 0)) ≠ 0) ∧
    (∃ s i, Arrives s i 0 2 (some (.link 0)) ∧ takesArrival s 0 2 = true ∧ missingAfter s 0 2 (some (.link 0)) ≠ 0) ∧
    (∃ s, Arrives s .castCtrlArrive 0 1 none ∧ takesArrival s 0 1 = true ∧ missingAfter s 0 1 none = 0 ∧ nodeRoot s 0 = false) ∧
    (∃ s, Arrives s .castCtrlArrive 0 1 none ∧ takesArrival s 0 1 = true ∧ missingAfter s 0 1 none = 0 ∧ nodeRoot s 0 = true
      ∧ ∀ e ∈ (s.node 0).arrivals, hopCost s e.2 ≤ s.regN .cast 0x4C % 2 ^ 24) ∧
    (∃ s, Arrives s .castCtrlArrive 0 1 none ∧ takesArrival s 0 1 = false) := by
  refine ⟨?_, ?_, ?_, ?_, ?_, ?_, ?_, ?_⟩
  · exact ⟨{ up with castSt := .released }, by decide +kernel⟩
  · exact ⟨{ up with bind := some ⟨5, none⟩ }, by decide +kernel⟩
  · exact ⟨arriving { st := .idle }, ⟨by decide +kernel, fun _ => by decide +kernel, nofun⟩, by decide +kernel⟩
  · refine ⟨told (.arrive 0 0 2) (node0 { st := .idle }), .castArrive (.node 0) 5 0 2, ⟨by decide +kernel, nofun, ?_⟩, by decide +kernel⟩
    rintro _ ⟨⟩
    exact ⟨by decide +kernel, by decide +kernel, by decide +kernel, _, rfl⟩
  · refine ⟨(node0Up { st := .idle }).setLink 0 { st := .up, vl0 := { rx := [ctlFrame 1 0 [0, 2]], used := 1 } }, .castArrive (.link 0) 5 0 2,
      ⟨by decide +kernel, nofun, ?_⟩, by decide +kernel⟩
    rintro _ ⟨⟩
    exact ⟨by decide +kernel, by decide +kernel, by decide +kernel, by decide +kernel, by decide +kernel, _, rfl, by decide +kernel⟩
  · exact ⟨arriving { st := .collecting, arrivals := [(2, .node 1)] }, ⟨by decide +kernel, fun _ => by decide +kernel, nofun⟩, by decide +kernel⟩
  · exact ⟨(arriving { st := .collecting, arrivals := [(2, .node 1)] }).setRegN .cast 0x100 (2 ^ 31 + 2 ^ 30),
      ⟨by decide +kernel, fun _ => by decide +kernel, nofun⟩, by decide +kernel⟩
  · exact ⟨arriving { st := .sent }, ⟨by decide +kernel, fun _ => by decide +kernel, nofun⟩, by decide +kernel⟩

/-- The premises of ReleasesAbortsAndNotices meet. -/
theorem witness_ReleasesAbortsAndNotices :
    (∃ s r base, Released s (.node 3) .sent r base false ∧ ∀ e ∈ (s.node 0).arrivals, hopCost s e.2 ≤ r) ∧
    (∃ s r base, Released s (.node 3) .sent r base false ∧ ∃ e ∈ (s.node 0).arrivals, r < hopCost s e.2) ∧
    (∃ s r base, Released s (.link 0) .sent r base true) ∧
    (∃ s r base, Released s (.node 0) .collecting r base false) ∧
    (∃ (s : State) (src : CastSrc), Live s = true ∧ (s.node 0).st ≠ .disabled
      ∧ CastComes s src (nodeLot s 0) 1 3 (fun p _ => p.nat 16 1 = 0) (.abort (srcNode src) 0)) ∧
    (∃ (s : State) (n : Nat), Live s = true ∧ n < 64 ∧ (s.node n).st = .collecting
      ∧ s.regN .cast 0x48 % 2 ^ 16 * 1000 ≤ s.time.toNat - (s.node n).timer) ∧
    (∃ (s : State) (src : CastSrc) (b : NoticeBody), Live s = true ∧ (s.node 0).st = .released ∧ b.node = 0 ∧ (s.node 0).noticed = true
      ∧ CastComes s src (nodeLot s 0) 0 4 (fun p _ => noticeOf p = b) (.notice (srcNode src) b) ∧ s.castSt = .released
      ∧ jobLot s = some (nodeLot s 0)) ∧
    (∃ (s : State) (src : CastSrc) (b : NoticeBody), Live s = true ∧ (s.node 0).st = .collecting ∧ b.node = 0 ∧ (s.node 0).noticed = false
      ∧ CastComes s src (nodeLot s 0) 0 4 (fun p _ => noticeOf p = b) (.notice (srcNode src) b) ∧ nodeRoot s 0 = false) := by
  refine ⟨?_, ?_, ?_, ?_, ?_, ?_, ?_, ?_⟩
  · exact ⟨told (.release 3 0 600 64) ((node0 { st := .sent, localSlot := some 1, arrivals := [(2, .node 0)] }).setRegN .cast 0x134 5), 600, 64,
      ⟨by decide +kernel, by decide +kernel, by decide +kernel, _, rfl⟩, by decide +kernel⟩
  · exact ⟨told (.release 3 0 6 64) ((node0 { st := .sent, arrivals := [(2, .node 0)] }).setRegN .cast 0x134 5), 6, 64,
      ⟨by decide +kernel, by decide +kernel, by decide +kernel, _, rfl⟩, by decide +kernel⟩
  · exact ⟨(node0Up { st := .sent }).setLink 0 { st := .up, vl1 := { rx := [{ ctlFrame 2 2 ([0, 0, 0, 0] ++ leBytes 4 600 ++ leBytes 8 64) with rpl := true }], used := 1 } },
      600, 64, by decide +kernel, by decide +kernel, by decide +kernel, by decide +kernel, by decide +kernel, _, rfl, by decide +kernel⟩
  · exact ⟨told (.release 0 0 600 64) (node0 { st := .collecting }), 600, 64, by decide +kernel, by decide +kernel, by decide +kernel, _, rfl⟩
  · exact ⟨told (.abort 0 0) (node0 { st := .collecting }), .node 0, by decide +kernel, by decide +kernel, by decide +kernel, _, rfl⟩
  · exact ⟨{ node0 { st := .collecting } with time := 65535000 }, 0, by decide +kernel⟩
  · exact ⟨{ (told (.notice 0 noticed) (node0Up { st := .released, noticed := true })) with castSt := .released }, .node 0, noticed,
      by decide +kernel, by decide +kernel, by decide +kernel, by decide +kernel, ⟨by decide +kernel, _, rfl⟩, by decide +kernel⟩
  · exact ⟨told (.notice 0 noticed) (node0 { st := .collecting }), .node 0, noticed,
      by decide +kernel, by decide +kernel, by decide +kernel, by decide +kernel, ⟨by decide +kernel, _, rfl⟩, by decide +kernel⟩

/-- The premises of TheReleaseRearmAndBindOff meet. -/
theorem witness_TheReleaseRearmAndBindOff :
    (∃ (s : State) (p : PendingRelease), Live s = true ∧ s.castRelease = some p ∧ p.due ≤ s.wall ∧ s.flt.stopped = false) ∧
    (∃ (s : State) (p : PendingRelease), Live s = true ∧ s.castRelease = some p ∧ p.due ≤ s.wall ∧ s.flt.stopped = true) ∧
    (∃ (s : State), Live s = true ∧ (∀ (p : PendingRelease), s.castRelease = some p → s.wall < p.due)) ∧
    (∃ (s : State), Live s = true ∧ anyRunning s = true) ∧
    (∃ (s : State), Live s = true ∧ anyRunning s = false) ∧
    (∃ (s : State), Live s = true ∧ s.bind = none) ∧
    (∃ (s : State) (b : BindOff) (t0 : Nat), Live s = true ∧ s.bind = some b ∧ b.quietFrom = some t0 ∧ s.regN Blk.cast 108 % 2 ^ 16 * 1000 ≤
      BitVec.toNat s.time - t0 ∧ queuesHold s b.lot = false ∧ s.castDeferred = false) ∧
    (∃ (s : State) (b : BindOff), Live s = true ∧ s.bind = some b ∧ (∀ (t0 : Nat), b.quietFrom = some t0 → BitVec.toNat s.time - t0 < s.regN
      Blk.cast 108 % 2 ^ 16 * 1000 ∨ queuesHold s b.lot = true) ∧ b.quietFrom ≠ none) := by
  refine ⟨?_, ?_, ?_, ?_, ?_, ?_, ?_, ?_⟩
  · exact ⟨{ core { step := 3, digestN := 4 } with castRelease := some ⟨0, 64, 0⟩ }, ⟨0, 64, 0⟩, by decide +kernel⟩
  · exact ⟨{ up with castRelease := some ⟨0, 64, 0⟩, flt := { up.flt with stopped := true } }, ⟨0, 64, 0⟩, by decide +kernel⟩
  · exact ⟨up, by decide +kernel⟩
  · exact ⟨timedRun up, by decide +kernel⟩
  · exact ⟨node0 { st := .failed }, by decide +kernel⟩
  · exact ⟨up, by decide +kernel⟩
  · exact ⟨{ core { counters := [(3, { value := 4 })] } with bind := some ⟨5, some 0⟩, time := 65535000 }, ⟨5, some 0⟩, 0, by decide +kernel⟩
  · exact ⟨{ up with bind := some ⟨5, some 0⟩ }, ⟨5, some 0⟩, by decide +kernel⟩

/-- The premises of TheHostSetsASelectedCounter meet. -/
theorem witness_TheHostSetsASelectedCounter :
    (∃ (s : State) (p : Nat), Live s = true ∧ p < s.fuses.panels ∧ s.regN (Blk.row p) 64 % 2 = 0) ∧
    (∃ (s : State) (p : Nat), Live s = true ∧ p < s.fuses.panels ∧ s.regN (Blk.row p) 64 % 2 = 1) ∧
    (∃ (s : State) (w0 k ctr : Nat) (v : Word), s.pending = [] ∧ s.pins.perst = false ∧ s.rowSets = [(w0, k, ctr, v)] ∧ w0 < s.wall) ∧
    (∃ (s : State) (w0 k ctr : Nat) (v : Word), s.pending = [] ∧ s.pins.perst = false ∧ s.rowSets = [(w0, k, ctr, v)] ∧ s.wall ≤ w0) := by
  refine ⟨?_, ?_, ?_, ?_⟩
  · exact ⟨up, 7, by decide +kernel⟩
  · exact ⟨(up.setRegN (.row 7) 0x40 1).setRegN (.row 7) 0x44 (2 ^ 31 + 4095), 7, by decide +kernel⟩
  · exact ⟨{ up with rowSets := [(0, 0, 3, 9)], wall := 1 }, 0, 0, 3, 9, by decide +kernel⟩
  · exact ⟨{ up with rowSets := [(1, 0, 3, 9)], wall := 1 }, 1, 0, 3, 9, by decide +kernel⟩

/-- The premises of ALinkTrainsFailsAndRetrains meet (1 of 2). -/
theorem witness_ALinkTrainsFailsAndRetrains :
    (∃ (s : State) (l : Nat),
      let x : Link := s.link l;
      ∃ (w : Word), Live s = true ∧ writable s (Blk.ply l) = true ∧ bitOf (BitVec.toNat w) 0 = true ∧ x.st = LinkSt.disabled) ∧
    (∃ (s : State) (l : Nat),
      let x : Link := s.link l;
      ∃ (w : Word), Live s = true ∧ writable s (Blk.ply l) = true ∧ bitOf (BitVec.toNat w) 0 = true ∧ x.st ≠ LinkSt.disabled) ∧
    (∃ (s : State) (l : Nat),
      let x : Link := s.link l;
      ∃ (w : Word), Live s = true ∧ writable s (Blk.ply l) = true ∧ bitOf (BitVec.toNat w) 0 = false ∧ x.st ≠ LinkSt.disabled) ∧
    (∃ (s : State) (l : Nat),
      let x : Link := s.link l;
      Live s = true ∧ writable s (Blk.ply l) = true ∧ x.st = LinkSt.training) ∧
    (∃ (s : State) (l : Nat),
      let x : Link := s.link l;
      ∃ (peer : DWord), Live s = true ∧ writable s (Blk.ply l) = true ∧ s.reg64 (Blk.ply l) 72 = BitVec.toNat peer ∧ peer ≠ 0 ∧ x.st =
      LinkSt.ident) ∧
    (∃ (s : State) (l : Nat),
      let x : Link := s.link l;
      ∃ (peer : DWord), Live s = true ∧ writable s (Blk.ply l) = true ∧ s.reg64 (Blk.ply l) 72 = BitVec.toNat peer ∧ peer ≠ 0 ∧ x.st =
      LinkSt.retrain ∧ x.trained = true ∧ x.matched = false) ∧
    (∃ (s : State) (l : Nat),
      let x : Link := s.link l;
      ∃ (peer : DWord), Live s = true ∧ writable s (Blk.ply l) = true ∧ (x.st = LinkSt.ident ∨ x.st = LinkSt.retrain ∧ x.trained = true ∧
      x.matched = false) ∧ (s.reg64 (Blk.ply l) 72 ≠ BitVec.toNat peer ∨ peer = 0)) ∧
    (∃ (s : State) (l : Nat),
      let x : Link := s.link l;
      ∃ (g : Nat),
      let n : Nat := nRt s g;
      let ackUs : Nat := bits (s.regN (Blk.ply l) 64) 16 7;
      Live s = true ∧ writable s (Blk.ply l) = true ∧ x.st = LinkSt.gauging ∧ ceilDiv n 20 + 2 ≤ 120 ∧ n * 134 + 50000 < ackUs * 100000) := by
  refine ⟨?_, ?_, ?_, ?_, ?_, ?_, ?_, ?_⟩
  · exact ⟨up, 0, 1, by decide +kernel⟩
  · exact ⟨linked { st := .training }, 0, 1, by decide +kernel⟩
  · exact ⟨linked { st := .failed }, 0, 0, by decide +kernel⟩
  · exact ⟨linked { st := .training }, 0, by decide +kernel⟩
  · exact ⟨(linked { st := .ident }).setReg64 (.ply 0) 0x48 64, 0, 64, by decide +kernel⟩
  · exact ⟨(linked { st := .retrain, trained := true }).setReg64 (.ply 0) 0x48 64, 0, 64, by decide +kernel⟩
  · exact ⟨(linked { st := .ident }).setReg64 (.ply 0) 0x48 64, 0, 65, by decide +kernel⟩
  · exact ⟨(linked { st := .gauging }).setRegN (.ply 0) 0x40 (64 * 2 ^ 16 + 1), 0, 100, by decide +kernel⟩

/-- The premises of ALinkTrainsFailsAndRetrains meet (2 of 2). -/
theorem witness_ALinkTrainsFailsAndRetrains_2 :
    (∃ (s : State) (l : Nat),
      let x : Link := s.link l;
      ∃ (g : Nat),
      let n : Nat := nRt s g;
      Live s = true ∧ writable s (Blk.ply l) = true ∧ x.st = LinkSt.gauging ∧ 120 < ceilDiv n 20 + 2) ∧
    (∃ (s : State) (l : Nat),
      let x : Link := s.link l;
      ∃ (g : Nat),
      let n : Nat := nRt s g;
      let ackUs : Nat := bits (s.regN (Blk.ply l) 64) 16 7;
      Live s = true ∧ writable s (Blk.ply l) = true ∧ x.st = LinkSt.gauging ∧ ceilDiv n 20 + 2 ≤ 120 ∧ ackUs * 100000 ≤ n * 134 + 50000) ∧
    (∃ (s : State) (l : Nat),
      let x : Link := s.link l;
      Live s = true ∧ writable s (Blk.ply l) = true ∧ x.st = LinkSt.retrain ∧ x.matched = true) ∧
    (∃ (s : State) (l : Nat),
      let x : Link := s.link l;
      Live s = true ∧ writable s (Blk.ply l) = true ∧ (x.st = LinkSt.training ∨ x.st = LinkSt.ident) ∧ 250000000 ≤ BitVec.toNat s.time - x.since) ∧
    (∃ (s : State) (l : Nat),
      let x : Link := s.link l;
      Live s = true ∧ writable s (Blk.ply l) = true ∧ x.st = LinkSt.retrain ∧ bits (s.regN (Blk.ply l) 64) 24 8 * 1000000 ≤ BitVec.toNat s.time -
      x.since) ∧
    (∃ (s : State) (l : Nat),
      let x : Link := s.link l;
      Live s = true ∧ writable s (Blk.ply l) = true ∧ x.st = LinkSt.up) ∧
    (∃ (s : State) (l : Nat),
      let x : Link := s.link l;
      Live s = true ∧ writable s (Blk.ply l) = true ∧ x.st ≠ LinkSt.up) := by
  refine ⟨?_, ?_, ?_, ?_, ?_, ?_, ?_⟩
  · exact ⟨(linked { st := .gauging }).setRegN (.ply 0) 0x40 (64 * 2 ^ 16 + 1), 0, 100000, by decide +kernel⟩
  · exact ⟨(linked { st := .gauging }).setRegN (.ply 0) 0x40 1, 0, 100, by decide +kernel⟩
  · exact ⟨linked { st := .retrain, trained := true, matched := true }, 0, by decide +kernel⟩
  · exact ⟨{ linked { st := .training } with time := 250000000 }, 0, by decide +kernel⟩
  · exact ⟨{ linked { st := .retrain } with time := 255000000 }, 0, by decide +kernel⟩
  · exact ⟨linked { st := .up, dataQ := [txData] }, 0, by decide +kernel⟩
  · exact ⟨linked { st := .retrain }, 0, by decide +kernel⟩

/-- The premises of FramesAreAdmittedInOrderAndSlotsSend meet (1 of 2). -/
theorem witness_FramesAreAdmittedInOrderAndSlotsSend :
    (∃ (f : SentFrame), f.cls < 4 ∧ f.seq < 4096 ∧ f.ackClass < 4 ∧ f.ack < 4096 ∧ f.valid < 512 ∧ f.xoff < 8 ∧ f.payload.length = 256) ∧
    (∃ (s : State) (l : Nat),
      let x : Link := s.link l;
      ∃ (d : Nat), Live s = true ∧ writable s (Blk.ply l) = true ∧ (s.link l).st = LinkSt.up ∧ d < 3 ∧ (x.cls d).unacked ≠ [] ∧ bits (s.regN
      (Blk.ply l) 64) 16 7 * 1000 ≤ BitVec.toNat s.time - (x.cls d).timer) ∧
    (∃ (s : State) (l : Nat),
      let x : Link := s.link l;
      let noReplay : Prop := x.data.replay = [] ∧ x.vl0.replay = [] ∧ x.vl1.replay = [];
      Live s = true ∧ writable s (Blk.ply l) = true ∧ x.st = LinkSt.up ∧ x.dataQ = [] ∧ x.ctl0 = [] ∧ x.ctl1 = [] ∧ noReplay) ∧
    (∃ (s : State) (l : Nat),
      let x : Link := s.link l;
      let noReplay : Prop := x.data.replay = [] ∧ x.vl0.replay = [] ∧ x.vl1.replay = [];
      ∃ (d : TxData) (f : TxFrame) (fs : List TxFrame), Live s = true ∧ writable s (Blk.ply l) = true ∧ x.st = LinkSt.up ∧ x.slot % 20 ≠ 19 ∧
      noReplay ∧ x.dataQ = [d] ∧ d.due ≤ s.wall ∧ d.frames = f :: fs ∧ d.from_ = none ∧ peerXoff s l 0 = false ∧ paceFull s l x = false ∧
      x.data.unacked.length < 2048) ∧
    (∃ (s : State) (l : Nat),
      let x : Link := s.link l;
      let noReplay : Prop := x.data.replay = [] ∧ x.vl0.replay = [] ∧ x.vl1.replay = [];
      ∃ (p : TxCtl), Live s = true ∧ writable s (Blk.ply l) = true ∧ x.st = LinkSt.up ∧ x.slot % 20 = 19 ∧ noReplay ∧ x.ctl0 = [p] ∧ p.due ≤
      s.wall ∧ peerXoff s l 1 = false ∧ x.vl0.unacked.length < 128) ∧
    (∃ (s : State) (l : Nat),
      let x : Link := s.link l;
      ∃ (f : TxFrame) (fs : List TxFrame), Live s = true ∧ writable s (Blk.ply l) = true ∧ x.st = LinkSt.up ∧ x.slot % 20 ≠ 19 ∧ x.data.replay = f
      :: fs ∧ peerXoff s l 0 = false ∧ paceFull s l x = false) ∧
    (∃ (s : State) (l : Nat),
      let x : Link := s.link l;
      Live s = true ∧ writable s (Blk.ply l) = true ∧ x.st ≠ LinkSt.up) ∧
    (∃ (s : State) (l e : Nat) (w : Word), Live s = true ∧ writable s (Blk.ply l) = true ∧ e < 4 ∧ BitVec.toNat w % 2 ^ 16 ≠ 0 ∧ bitOf
      (BitVec.toNat w) 31 = true ∧ s.regBit (Blk.ply l) (96 + 4 * e) 31 = false) := by
  refine ⟨?_, ?_, ?_, ?_, ?_, ?_, ?_, ?_⟩
  · exact ⟨⟨1, 2, false, true, true, 64, 0, 0, false, 0, List.replicate 256 7⟩, by decide +kernel⟩
  · exact ⟨{ linked { st := .up, data := { unacked := [txFrame 0] } } with time := 127000 }, 0, 0, by decide +kernel⟩
  · exact ⟨linked { st := .up }, 0, by decide +kernel⟩
  · exact ⟨port0.setLink 0 { st := .up, dataQ := [txData] }, 0, txData, txFrame 0, [], by decide +kernel⟩
  · exact ⟨port0.setLink 0 { st := .up, slot := 19, ctl0 := [{ lot := 5, bytes := List.replicate 64 1, due := 0 }] }, 0,
      { lot := 5, bytes := List.replicate 64 1, due := 0 }, by decide +kernel⟩
  · exact ⟨port0.setLink 0 { st := .up, data := { replay := [txFrame 0] } }, 0, txFrame 0, [], by decide +kernel⟩
  · exact ⟨up, 0, by decide +kernel⟩
  · exact ⟨up, 0, 3, 0x80000005, by decide +kernel⟩

/-- The premises of FramesAreAdmittedInOrderAndSlotsSend meet (2 of 2). -/
theorem witness_FramesAreAdmittedInOrderAndSlotsSend_2 :
    (∃ (s : State) (l e : Nat) (w : Word), Live s = true ∧ writable s (Blk.ply l) = true ∧ e < 4 ∧ BitVec.toNat w % 2 ^ 16 ≠ 0 ∧ bitOf
      (BitVec.toNat w) 31 = false) ∧
    (∃ (s : State) (l e : Nat) (w : Word), Live s = true ∧ writable s (Blk.ply l) = true ∧ e < 4 ∧ (BitVec.toNat w % 2 ^ 16 = 0 ∨ bitOf
      (BitVec.toNat w) 31 = true ∧ s.regBit (Blk.ply l) (96 + 4 * e) 31 = true)) := by
  refine ⟨?_, ?_⟩
  · exact ⟨port0, 0, 0, 0x5, by decide +kernel⟩
  · exact ⟨port0, 0, 0, 0x80000007, by decide +kernel⟩

/-- The premises of ContextsAndTablesOfTheFabric meet. -/
theorem witness_ContextsAndTablesOfTheFabric :
    (∃ (s : State) (w : Word),
      let lot : Nat := BitVec.toNat w % 2 ^ 16;
      ∃ (x : Nat),
      let good : Prop := lot ≠ 0 ∧ (∀ y < 4, y ≠ x → ctxValid s y = true → ctxLot s y ≠ lot) ∧ rangeReady s 0 x = true ∧ rangeReady s 1 x = true
        ∧ ∀ e ∈ ctxEntries s 0 x, entryRoute e / 2 ^ (5 * entryHops e) = 0;
      Live s = true ∧ x < 4 ∧ bitOf (BitVec.toNat w) 31 = true ∧ good) ∧
    (∃ (s : State) (w : Word),
      let lot : Nat := BitVec.toNat w % 2 ^ 16;
      ∃ (x : Nat),
      let good : Prop := lot ≠ 0 ∧ (∀ y < 4, y ≠ x → ctxValid s y = true → ctxLot s y ≠ lot) ∧ rangeReady s 0 x = true ∧ rangeReady s 1 x = true
        ∧ ∀ e ∈ ctxEntries s 0 x, entryRoute e / 2 ^ (5 * entryHops e) = 0;
      Live s = true ∧ x < 4 ∧ bitOf (BitVec.toNat w) 31 = true ∧ ¬good) ∧
    (∃ (s : State) (w : Word) (x : Nat), Live s = true ∧ x < 4 ∧ bitOf (BitVec.toNat w) 31 = false) ∧
    (∃ (s : State),
      let kind : Nat := s.regN Blk.fab 144 / 2 ^ 31;
      let ix : Nat := s.regN Blk.fab 144 % 2 ^ 13;
      Live s = true ∧ entryLocked s kind ix = true) ∧
    (∃ (s : State),
      let kind : Nat := s.regN Blk.fab 144 / 2 ^ 31;
      let ix : Nat := s.regN Blk.fab 144 % 2 ^ 13;
      Live s = true ∧ entryLocked s kind ix = false) := by
  refine ⟨?_, ?_, ?_, ?_, ?_⟩
  · exact ⟨up, 0x80000005, 0, by decide +kernel⟩
  · exact ⟨up, 0x80000000, 0, by decide +kernel⟩
  · exact ⟨up, 5, 0, by decide +kernel⟩
  · exact ⟨forwards.setRegN .fab 0x90 (2 ^ 31), by decide +kernel⟩
  · exact ⟨up, by decide +kernel⟩

/-- The premises of PacketsAreGrantedDroppedAndDelivered meet (1 of 3). -/
theorem witness_PacketsAreGrantedDroppedAndDelivered :
    (∃ (s : State) (c : CoreId) (k : Nat) (o : Op),
      let n : Nat := (fld o.desc 0).extent;
      let now : Nat := BitVec.toNat s.ptc;
      let granted : Prop := clockRuns s = true ∧ (∀ x ∈ (s.core k).port, x.2.2 ≤ now ∨ now + n ≤ x.2.1) ∧ niUsed s (k / 288) < 32 ∧ (o.eng = 5 →
        4 ≤ o.age);
      ∃ (e : List Word), Live s = true ∧ coreOf s c = some k ∧ rankWaiter (s.core k) = some o ∧ granted ∧ rankEntry s ((rankTarget o).1 / 2 ^ 28)
      = some e) ∧
    (∃ (s : State) (c : CoreId) (k : Nat) (o : Op),
      let n : Nat := (fld o.desc 0).extent;
      let now : Nat := BitVec.toNat s.ptc;
      let granted : Prop := clockRuns s = true ∧ (∀ x ∈ (s.core k).port, x.2.2 ≤ now ∨ now + n ≤ x.2.1) ∧ niUsed s (k / 288) < 32 ∧ (o.eng = 5 →
        4 ≤ o.age);
      Live s = true ∧ coreOf s c = some k ∧ rankWaiter (s.core k) = some o ∧ ¬granted) ∧
    (∃ (s : State) (l : Nat) (f : RxFrame) (rest : List RxFrame),
      let h : PktHead := headOf f.bytes;
      Live s = true ∧ DataFront s l f rest ∧ f.sop = true ∧ lotAllowed s l h.lot = false) ∧
    (∃ (s : State) (l : Nat) (f : RxFrame) (rest : List RxFrame),
      let h : PktHead := headOf f.bytes;
      Live s = true ∧ DataFront s l f rest ∧ f.sop = true ∧ lotAllowed s l h.lot = true ∧ discards s h.lot = true) ∧
    (∃ (s : State) (l : Nat) (f : RxFrame) (rest : List RxFrame), Live s = true ∧ DataFront s l f rest ∧ DataPasses s l f ∧ pktOk f.bytes =
      false) ∧
    (∃ (s : State) (l : Nat) (f : RxFrame) (rest : List RxFrame),
      let h : PktHead := headOf f.bytes;
      Live s = true ∧ DataFront s l f rest ∧ DataPasses s l f ∧ pktOk f.bytes = true ∧ h.next = h.hops ∧ (jobLot s ≠ some h.lot ∨ jobRank s ≠
      h.dstRank)) ∧
    (∃ (s : State) (l : Nat) (f : RxFrame) (rest : List RxFrame),
      let h : PktHead := headOf f.bytes;
      Live s = true ∧ DataFront s l f rest ∧ DataPasses s l f ∧ pktOk f.bytes = true ∧ h.next = h.hops ∧ jobLot s = some h.lot ∧ jobRank s =
      h.dstRank ∧ physOf s h.dstVcore = none) ∧
    (∃ (s : State) (l : Nat) (f : RxFrame) (rest : List RxFrame),
      let h : PktHead := headOf f.bytes;
      ∃ (k : Nat), Live s = true ∧ DataFront s l f rest ∧ DataPasses s l f ∧ pktOk f.bytes = true ∧ h.next = h.hops ∧ jobLot s = some h.lot ∧
      jobRank s = h.dstRank ∧ physOf s h.dstVcore = some k ∧ coreOn s k = true ∧ bufferRoom (s.core k) false < 4 * h.granules) := by
  refine ⟨?_, ?_, ?_, ?_, ?_, ?_, ?_, ?_⟩
  · exact ⟨rankSends (op rankCopy (.rank none false)), c0, 0, op rankCopy (.rank none false), [BitVec.ofNat 32 (2 ^ 31), 1, 0, 0], by decide +kernel⟩
  · exact ⟨{ rankSends (op rankCopy (.rank none false)) with niBufs := [(0, 32)] }, c0, 0, op rankCopy (.rank none false), by decide +kernel⟩
  · exact ⟨dataIn (linked {}) [pktFrame (pktHead 0 0 1 0) true (List.replicate 224 3)], 0, pktFrame (pktHead 0 0 1 0) true (List.replicate 224 3), [],
      by unfold DataFront; decide +kernel⟩
  · exact ⟨{ dataIn port0 [pktFrame (pktHead 0 0 1 0) true (List.replicate 224 3)] with bind := some ⟨5, some 0⟩ }, 0, pktFrame (pktHead 0 0 1 0) true
      (List.replicate 224 3), [], by unfold DataFront; decide +kernel⟩
  · exact ⟨dataIn port0 [pktFrame (pktHead 0 0 1 (2 ^ 40)) true []], 0, pktFrame (pktHead 0 0 1 (2 ^ 40)) true [], [],
      by unfold DataFront DataPasses; decide +kernel⟩
  · exact ⟨(dataIn port0 [pktFrame (pktHead 0 0 1 0) true (List.replicate 224 3)]).setRegN .fab 0x54 9, 0, pktFrame (pktHead 0 0 1 0) true
      (List.replicate 224 3), [], by unfold DataFront DataPasses; decide +kernel⟩
  · exact ⟨{ dataIn port0 [pktFrame (pktHead 0 2047 1 0) true []] with fuses := { up.fuses with grade := .h0512 } }, 0, pktFrame (pktHead 0 2047 1 0)
      true [], [], by unfold DataFront DataPasses; decide +kernel⟩
  · exact ⟨{ dataIn port0 [pktFrame (pktHead 0 0 1 0) true (List.replicate 224 3)] with cores := [(0, { ret := List.replicate 1024 stray })] }, 0,
      pktFrame (pktHead 0 0 1 0) true (List.replicate 224 3), [], 0, by unfold DataFront DataPasses; decide +kernel⟩

/-- The premises of PacketsAreGrantedDroppedAndDelivered meet (2 of 3). -/
theorem witness_PacketsAreGrantedDroppedAndDelivered_2 :
    (∃ (s : State) (l : Nat) (f : RxFrame) (rest : List RxFrame),
      let h : PktHead := headOf f.bytes;
      ∃ (k : Nat), Live s = true ∧ DataFront s l f rest ∧ DataPasses s l f ∧ pktOk f.bytes = true ∧ h.next = h.hops ∧ jobLot s = some h.lot ∧
      jobRank s = h.dstRank ∧ physOf s h.dstVcore = some k ∧ coreOn s k = true ∧ 4 * h.granules ≤ bufferRoom (s.core k) false ∧ rest = [] ∧ f.eop
      = false ∧ f.bytes.length = 256) ∧
    (∃ (s : State) (l : Nat) (f : RxFrame) (rest : List RxFrame),
      let h : PktHead := headOf f.bytes;
      let out : Nat := hopLink h.route h.next;
      Live s = true ∧ DataFront s l f rest ∧ DataPasses s l f ∧ pktOk f.bytes = true ∧ h.next ≠ h.hops ∧ linkUsable s out = false) ∧
    (∃ (s : State) (l : Nat) (f : RxFrame) (rest : List RxFrame),
      let h : PktHead := headOf f.bytes;
      let out : Nat := hopLink h.route h.next;
      Live s = true ∧ DataFront s l f rest ∧ DataPasses s l f ∧ pktOk f.bytes = true ∧ h.next ≠ h.hops ∧ linkUsable s out = true ∧ lotAllowed s
      out h.lot = false) ∧
    (∃ (s : State) (l : Nat) (f : RxFrame) (rest : List RxFrame),
      let h : PktHead := headOf f.bytes;
      let out : Nat := hopLink h.route h.next;
      Live s = true ∧ DataFront s l f rest ∧ DataPasses s l f ∧ pktOk f.bytes = true ∧ h.next ≠ h.hops ∧ linkUsable s out = true ∧ lotAllowed s
      out h.lot = true ∧ rest = [] ∧ out ≠ l) ∧
    (∃ (s : State) (l k left dbeat : Nat) (part : List Byte) (sig : Option Sig) (src : Word) (bytes : List Byte),
      let x : Link := s.link l;
      let f : SentFrame := readFrame bytes;
      let whole : List Byte := part ++ List.take f.valid f.payload;
      Live s = true ∧ writable s (Blk.ply l) = true ∧ x.st = LinkSt.up ∧ x.into = some (PktRoute.core k (left + 1) dbeat part sig src) ∧ x.data.rx
      = [] ∧ crcOk bytes = true ∧ f.ackClass = 0 ∧ f.cls = 1 ∧ f.sop = false ∧ f.eop = decide (left = 0) ∧ f.seq = x.data.expected ∧ f.seq < 4096
      ∧ x.data.used < 2048 ∧ 256 ≤ whole.length ∧ whole.length < 512) ∧
    (∃ (s : State) (l lane : Nat) (f : RxFrame) (rest : List RxFrame),
      let p : CtlPacket := ctlOf f.bytes;
      Live s = true ∧ writable s (Blk.ply l) = true ∧ lane < 2 ∧ (s.link l).st = LinkSt.up ∧ ((s.link l).cls (1 + lane)).rx = f :: rest ∧
      lotAllowed s l p.lot = false) ∧
    (∃ (s : State) (l lane : Nat) (f : RxFrame) (rest : List RxFrame),
      let p : CtlPacket := ctlOf f.bytes;
      Live s = true ∧ writable s (Blk.ply l) = true ∧ lane < 2 ∧ (s.link l).st = LinkSt.up ∧ ((s.link l).cls (1 + lane)).rx = f :: rest ∧
      lotAllowed s l p.lot = true ∧ (ctlOk p = false ∨ p.vl ≠ lane)) ∧
    (∃ (s : State) (l lane : Nat) (f : RxFrame) (rest : List RxFrame),
      let p : CtlPacket := ctlOf f.bytes;
      Live s = true ∧ writable s (Blk.ply l) = true ∧ lane < 2 ∧ (s.link l).st = LinkSt.up ∧ ((s.link l).cls (1 + lane)).rx = f :: rest ∧
      lotAllowed s l p.lot = true ∧ p.typ = 16 ∧ p.routed = true ∧ p.vl = lane ∧ forwardEntry s p.lot p.dst = none) := by
  refine ⟨?_, ?_, ?_, ?_, ?_, ?_, ?_, ?_⟩
  · exact ⟨dataIn port0 [pktFrame (pktHead 0 0 1 0) false (List.replicate 224 3)], 0, pktFrame (pktHead 0 0 1 0) false (List.replicate 224 3), [], 0,
      by unfold DataFront DataPasses; decide +kernel⟩
  · exact ⟨dataIn port0 [pktFrame (pktHead 1 0 1 1) true (List.replicate 224 3)], 0, pktFrame (pktHead 1 0 1 1) true (List.replicate 224 3), [],
      by unfold DataFront DataPasses; decide +kernel⟩
  · exact ⟨(dataIn port0 [pktFrame (pktHead 1 0 1 1) true (List.replicate 224 3)]).setLink 1 { st := .up }, 0, pktFrame (pktHead 1 0 1 1) true
      (List.replicate 224 3), [], by unfold DataFront DataPasses; decide +kernel⟩
  · exact ⟨((dataIn port0 [pktFrame (pktHead 1 0 1 1) true (List.replicate 224 3)]).setLink 1 { st := .up }).setRegN (.ply 1) 0x60 (2 ^ 31 + 5), 0,
      pktFrame (pktHead 1 0 1 1) true (List.replicate 224 3), [], by unfold DataFront DataPasses; decide +kernel⟩
  · exact ⟨port0.setLink 0 { st := .up, into := some (.core 0 1 8 [] none 0) }, 0, 0, 0, 8, [], none, 0, (⟨1, 0, false, false, true, 256, 0, 0, false,
      0, List.replicate 256 3⟩ : SentFrame).wire, by simp only [crcOk_fold]; rw [wire_fold]; decide +kernel⟩
  · exact ⟨ctlHere (linked {}) (ctlFrame 4 0 []), 0, 0, ctlFrame 4 0 [], [], by decide +kernel⟩
  · exact ⟨ctlHere port0 (ctlFrame 9 0 []), 0, 0, ctlFrame 9 0 [], [], by decide +kernel⟩
  · exact ⟨ctlHere port0 (ctlFrame 0x10 1 []), 0, 0, ctlFrame 0x10 1 [], [], by decide +kernel⟩

/-- The premises of PacketsAreGrantedDroppedAndDelivered meet (3 of 3). -/
theorem witness_PacketsAreGrantedDroppedAndDelivered_3 :
    (∃ (s : State) (l lane : Nat) (f : RxFrame) (rest : List RxFrame),
      let p : CtlPacket := ctlOf f.bytes;
      ∃ (e : List Word),
      let w : Nat := BitVec.toNat (e.getD 1 0);
      Live s = true ∧ writable s (Blk.ply l) = true ∧ lane < 2 ∧ (s.link l).st = LinkSt.up ∧ ((s.link l).cls (1 + lane)).rx = f :: rest ∧
      lotAllowed s l p.lot = true ∧ p.typ = 16 ∧ p.routed = true ∧ p.vl = lane ∧ forwardEntry s p.lot p.dst = some e ∧ bitOf w 7 = true) ∧
    (∃ (s : State) (l lane : Nat) (f : RxFrame) (rest : List RxFrame),
      let p : CtlPacket := ctlOf f.bytes;
      ∃ (e : List Word),
      let w : Nat := BitVec.toNat (e.getD 1 0);
      Live s = true ∧ writable s (Blk.ply l) = true ∧ lane < 2 ∧ (s.link l).st = LinkSt.up ∧ ((s.link l).cls (1 + lane)).rx = f :: rest ∧
      lotAllowed s l p.lot = true ∧ p.typ = 16 ∧ p.routed = true ∧ p.vl = lane ∧ forwardEntry s p.lot p.dst = some e ∧ bitOf w 7 = false ∧ p.ttl ≤
      1) ∧
    (∃ (s : State) (l lane : Nat) (f : RxFrame) (rest : List RxFrame),
      let p : CtlPacket := ctlOf f.bytes;
      ∃ (e : List Word),
      let w : Nat := BitVec.toNat (e.getD 1 0);
      Live s = true ∧ writable s (Blk.ply l) = true ∧ lane < 2 ∧ (s.link l).st = LinkSt.up ∧ ((s.link l).cls (1 + lane)).rx = f :: rest ∧
      lotAllowed s l p.lot = true ∧ p.typ = 16 ∧ p.routed = true ∧ p.vl = lane ∧ forwardEntry s p.lot p.dst = some e ∧ bitOf w 7 = false ∧ 1 <
      p.ttl ∧ linkUsable s (w % 32) = true ∧ lotAllowed s (w % 32) p.lot = true) ∧
    (∃ (o : Op) (e : List Word) (left cnt : Nat) (w : Bool),
      let n : Nat := (fld o.desc 0).extent;
      o.work = Work.rank (some (e, left)) w ∧ left < n ∧ 0 < cnt ∧ left + cnt ≤ n ∧ (left + cnt) % 128 ≠ 0 ∧ left + cnt < n) ∧
    (∃ (s : State) (o : Op) (e : List Word) (left cnt : Nat) (w : Bool),
      let n : Nat := (fld o.desc 0).extent;
      let link : Nat := hopLink (entryRoute e) 0;
      o.work = Work.rank (some (e, left)) w ∧ left < n ∧ 0 < cnt ∧ left + cnt ≤ n ∧ ((left + cnt) % 128 = 0 ∨ left + cnt = n) ∧ linkUsable s link
      = true ∧ lotAllowed s link ((jobLot s).getD 0) = true) ∧
    (∃ (h : PktHead) (payload : List Byte) (f : TxFrame), h.lot < 2 ^ 16 ∧ h.hops < 16 ∧ h.next < 16 ∧ h.dstVcore < 2048 ∧ h.dstRank < 2 ^ 20 ∧
      h.srcVcore < 2048 ∧ h.srcRank < 2 ^ 20 ∧ 1 ≤ h.granules ∧ h.granules ≤ 32 ∧ h.dbeat < 2 ^ 16 ∧ h.route < 2 ^ 64 ∧ (∀ (g : Sig), h.sig = some
      g → h.last = true ∧ g.op < 4 ∧ g.ctr < 2 ^ 13) ∧ f ∈ framesOf h.words payload) := by
  refine ⟨?_, ?_, ?_, ?_, ?_, ?_⟩
  · exact ⟨ctlHere forwards (ctlFrame 0x10 1 []), 0, 0, ctlFrame 0x10 1 [], [], [BitVec.ofNat 32 (2 ^ 31), 0x80, 0, 0], by decide +kernel⟩
  · exact ⟨ctlHere { forwards with rankTables := [(8192, [BitVec.ofNat 32 (2 ^ 31), 0, 0, 0])] } (ctlFrame 0x10 1 []), 0, 0, ctlFrame 0x10 1 [], [],
      [BitVec.ofNat 32 (2 ^ 31), 0, 0, 0], by decide +kernel⟩
  · exact ⟨ctlHere { forwards with rankTables := [(8192, [BitVec.ofNat 32 (2 ^ 31), 0, 0, 0])] } (ctlFrame 0x10 (1 + 4 * 3) []), 0, 0, ctlFrame 0x10
      (1 + 4 * 3) [], [], [BitVec.ofNat 32 (2 ^ 31), 0, 0, 0], by decide +kernel⟩
  · exact ⟨op rankCopy (.rank (some ([BitVec.ofNat 32 (2 ^ 31), 1, 0, 0], 0)) false), [BitVec.ofNat 32 (2 ^ 31), 1, 0, 0], 0, 1, false,
      by decide +kernel⟩
  · exact ⟨rankSends (op rankCopy (.rank (some ([BitVec.ofNat 32 (2 ^ 31), 1, 0, 0], 0)) false)), op rankCopy (.rank (some ([BitVec.ofNat 32 (2 ^ 31),
      1, 0, 0], 0)) false), [BitVec.ofNat 32 (2 ^ 31), 1, 0, 0], 0, 4, false, by decide +kernel⟩
  · exact ⟨pktHead 1 0 1 1, List.replicate 256 3, ⟨0, false, true, 32, List.replicate 32 3⟩, by decide +kernel⟩

/-- The premises of DoorbellsAndQueuePairs meet (1 of 3). -/
theorem witness_DoorbellsAndQueuePairs :
    (∃ (s : State) (q : Nat) (x : Qp) (v : Nat), Live s = true ∧ s.qp q = some x ∧ q < 262144 ∧ x.error = false ∧ v < 2 ^ x.s) ∧
    (∃ (s : State) (q : Nat) (x : Qp) (v : Nat), Live s = true ∧ s.qp q = some x ∧ q < 262144 ∧ x.error = false ∧ v < 2 ^ x.c) ∧
    (∃ (s : State) (q : Nat) (x : Qp) (v : Nat), Live s = true ∧ s.qp q = some x ∧ q < 262144 ∧ x.error = false ∧ 2 ^ x.s ≤ v ∧ x.deleting =
      none) ∧
    (∃ (s : State) (q : Nat) (x : Qp) (v : Nat), Live s = true ∧ s.qp q = some x ∧ q < 262144 ∧ x.error = false ∧ 2 ^ x.c ≤ v ∧ x.deleting =
      none) ∧
    (∃ (s : State) (q : Nat) (x : Qp) (ringOk : Bool) (i : Instr), Live s = true ∧ s.qp q = some x ∧ q < 262144 ∧ s.boot.stage = Stage.ready ∧
      x.waits = true ∧ visitNext s = some q ∧ (ringOk = false ∨ hostReach s (qpOwner s q) = false) ∧ (i ∈ [Instr.generate q ringOk true,
      Instr.cancel q ringOk, Instr.ripBack q ringOk, Instr.forecast q ringOk, Instr.createQp q ringOk, Instr.deleteQp q ringOk,
      Instr.registerPrefix q ringOk true, Instr.releasePrefix q ringOk, Instr.registerMotif q ringOk, Instr.releaseMotif q ringOk, Instr.assignQp
      q ringOk])) ∧
    (∃ (s : State) (q v : Nat) (i : Instr), Live s = true ∧ s.qp q = none ∧ q < 262144 ∧ s.srv.badQps.contains q = false ∧ i ∈ [Instr.sqTail q
      v, Instr.cqHead q v]) ∧
    (∃ (s : State) (q : Nat) (x : Qp) (e : List Byte),
      let k : Taken := asTaken s q x e;
      let n : Nat := ent e 8 4;
      let checks : List (Bool × Nat) := [(onAdmin s k, 16), (createQpFields e, 17)] ++ qpChecks s k n ++ [((s.qp n).isNone &&
        !s.srv.badQps.contains n, 17)];
      ∃ (st : Nat), Takes s q x e 16 ∧ firstFail checks = some st) ∧
    (∃ (s : State) (q : Nat) (x : Qp) (e : List Byte),
      let k : Taken := asTaken s q x e;
      let n : Nat := ent e 8 4;
      let checks : List (Bool × Nat) := [(onAdmin s k, 16), (createQpFields e, 17)] ++ qpChecks s k n ++ [((s.qp n).isNone &&
        !s.srv.badQps.contains n, 17)];
      Takes s q x e 16 ∧ firstFail checks = none) := by
  refine ⟨?_, ?_, ?_, ?_, ?_, ?_, ?_, ?_⟩
  · exact ⟨serving 5 [], 5, ring, 15, by decide +kernel⟩
  · exact ⟨serving 5 [], 5, ring, 15, by decide +kernel⟩
  · exact ⟨serving 5 [], 5, ring, 16, by decide +kernel⟩
  · exact ⟨serving 5 [], 5, ring, 16, by decide +kernel⟩
  · exact ⟨serving 5 [], 5, ring, false, .cancel 5 false, by decide +kernel⟩
  · exact ⟨up, 5, 3, .cqHead 5 3, by decide +kernel⟩
  · exact ⟨serving 5 (entry [(0, 0x10)]), 5, ring, entry [(0, 0x10)], 16, by unfold Takes; decide +kernel⟩
  · exact ⟨serving 0 (entry [(0, 0x10), (2, 262143), (3, 0x0404), (10, 1)]), 0, ring, entry [(0, 0x10), (2, 262143), (3, 0x0404), (10, 1)],
      by unfold Takes; decide +kernel⟩

/-- The premises of DoorbellsAndQueuePairs meet (2 of 3). -/
theorem witness_DoorbellsAndQueuePairs_2 :
    (∃ (s : State) (q : Nat) (x : Qp) (e : List Byte),
      let k : Taken := asTaken s q x e;
      let n : Nat := ent e 8 4;
      let there : Bool := match s.qp n with | some y => y.deleting.isNone | none => s.srv.badQps.contains n;
      let checks : List (Bool × Nat) := [(onAdmin s k, 16), (zeroElse e [(8, 4)], 17)] ++ qpChecks s k n ++ [(there, 17)];
      ∃ (st : Nat), Takes s q x e 17 ∧ firstFail checks = some st) ∧
    (∃ (s : State) (q : Nat) (x : Qp) (e : List Byte),
      let k : Taken := asTaken s q x e;
      let n : Nat := ent e 8 4;
      let there : Bool := match s.qp n with | some y => y.deleting.isNone | none => s.srv.badQps.contains n;
      let checks : List (Bool × Nat) := [(onAdmin s k, 16), (zeroElse e [(8, 4)], 17)] ++ qpChecks s k n ++ [(there, 17)];
      Takes s q x e 17 ∧ firstFail checks = none ∧ s.qp n = none) ∧
    (∃ (s : State) (q : Nat) (x : Qp) (e : List Byte),
      let k : Taken := asTaken s q x e;
      let n : Nat := ent e 8 4;
      let there : Bool := match s.qp n with | some y => y.deleting.isNone | none => s.srv.badQps.contains n;
      let checks : List (Bool × Nat) := [(onAdmin s k, 16), (zeroElse e [(8, 4)], 17)] ++ qpChecks s k n ++ [(there, 17)];
      ∃ (y : Qp), Takes s q x e 17 ∧ firstFail checks = none ∧ s.qp n = some y ∧ stepsRun s = true) ∧
    (∃ (s : State) (q : Nat) (x : Qp) (e : List Byte),
      let k : Taken := asTaken s q x e;
      let n : Nat := ent e 8 4;
      let there : Bool := match s.qp n with | some y => y.deleting.isNone | none => s.srv.badQps.contains n;
      let checks : List (Bool × Nat) := [(onAdmin s k, 16), (zeroElse e [(8, 4)], 17)] ++ qpChecks s k n ++ [(there, 17)];
      ∃ (y : Qp), Takes s q x e 17 ∧ firstFail checks = none ∧ s.qp n = some y ∧ stepsRun s = false ∧ y.ready = [] ∧ (∀ f ∈ liveCtxs s, f.2.qp ≠
      n)) ∧
    (∃ (s : State) (q : Nat) (x : Qp) (e : List Byte),
      let k : Taken := asTaken s q x e;
      let n : Nat := ent e 8 4;
      let checks : List (Bool × Nat) := [(onAdmin s k && qpOwner s q == 0, 16), (zeroElse e [(8, 4), (12, 4), (16, 4), (20, 4), (24, 4), (28,
        4)] && decide (1 ≤ n) && decide (n ≤ 64) && decide (ent e 16 4 ≤ 16384), 17), (ent e 16 4 == 0 || rangeFree s n (ent e 12 4) (ent e 16 4),
        21)];
      ∃ (st : Nat), Takes s q x e 22 ∧ firstFail checks = some st) ∧
    (∃ (s : State) (q : Nat) (x : Qp) (e : List Byte),
      let k : Taken := asTaken s q x e;
      let n : Nat := ent e 8 4;
      let checks : List (Bool × Nat) := [(onAdmin s k && qpOwner s q == 0, 16), (zeroElse e [(8, 4), (12, 4), (16, 4), (20, 4), (24, 4), (28,
        4)] && decide (1 ≤ n) && decide (n ≤ 64) && decide (ent e 16 4 ≤ 16384), 17), (ent e 16 4 == 0 || rangeFree s n (ent e 12 4) (ent e 16 4),
        21)];
      Takes s q x e 22 ∧ firstFail checks = none) ∧
    (∃ (s : State) (vf : Nat) (w : Word),
      let a : Nat := adminQp s vf;
      let sl : Nat := BitVec.toNat w % 256;
      let cl : Nat := bits (BitVec.toNat w) 8 8;
      let ok : Nat → Prop := fun v => 4 ≤ v ∧ v ≤ 16;
      Live s = true ∧ vf ≤ 64 ∧ (vf = 0 ∨ (vfOf s vf).count ≠ 0) ∧ ok sl ∧ ok cl ∧ s.qp a = none ∧ s.srv.badQps.contains a = false) ∧
    (∃ (s : State) (vf : Nat) (w : Word),
      let a : Nat := adminQp s vf;
      let sl : Nat := BitVec.toNat w % 256;
      let cl : Nat := bits (BitVec.toNat w) 8 8;
      ∃ (y : Qp), Live s = true ∧ vf ≤ 64 ∧ (vf = 0 ∨ (vfOf s vf).count ≠ 0) ∧ sl = 0 ∧ cl = 0 ∧ s.qp a = some y ∧ stepsRun s = true) := by
  refine ⟨?_, ?_, ?_, ?_, ?_, ?_, ?_, ?_⟩
  · exact ⟨serving 0 (entry [(0, 0x11), (2, 5)]), 0, ring, entry [(0, 0x11), (2, 5)], 17, by unfold Takes; decide +kernel⟩
  · exact ⟨srvWith (serving 0 (entry [(0, 0x11), (2, 5)])) fun r => { r with badQps := [5] }, 0, ring, entry [(0, 0x11), (2, 5)],
      by unfold Takes; decide +kernel⟩
  · exact ⟨srvWith (serving 0 (entry [(0, 0x11), (2, 5)])) fun r => { r with qps := r.qps ++ [(5, some { ring with sqTail := 0 })] }, 0, ring, entry
      [(0, 0x11), (2, 5)], { ring with sqTail := 0 }, by unfold Takes; decide +kernel⟩
  · exact ⟨srvWith (serving 0 (entry [(0, 0x11), (2, 5)])) fun r => { r with st := .stopped, qps := r.qps ++ [(5, some { ring with sqTail := 0 })] },
      0, ring, entry [(0, 0x11), (2, 5)], { ring with sqTail := 0 }, by unfold Takes; decide +kernel⟩
  · exact ⟨{ srvWith (serving 16 (entry [(0, 0x16), (2, 64)])) fun r => { r with vfs := [(1, { first := 16, count := 8 })] } with fns := [(1, { bme := true })], hostMem := Mem.store [] (2 ^ 64 + 0x1000) (entry [(0, 0x16), (2, 64)]) },
      16, ring, entry [(0, 0x16), (2, 64)], 16, by unfold Takes; decide +kernel⟩
  · exact ⟨serving 0 (entry [(0, 0x16), (2, 64), (3, 16), (4, 16384), (5, 1)]), 0, ring, entry [(0, 0x16), (2, 64), (3, 16), (4, 16384), (5, 1)],
      by unfold Takes; decide +kernel⟩
  · exact ⟨up, 0, 0x1010, by decide +kernel⟩
  · exact ⟨serving 0 [], 0, 0, ring, by decide +kernel⟩

/-- The premises of DoorbellsAndQueuePairs meet (3 of 3). -/
theorem witness_DoorbellsAndQueuePairs_3 :
    ∃ (s : State) (vf : Nat) (w : Word),
      let sl : Nat := BitVec.toNat w % 256;
      let cl : Nat := bits (BitVec.toNat w) 8 8;
      let ok : Nat → Prop := fun v => 4 ≤ v ∧ v ≤ 16;
      Live s = true ∧ vf ≤ 64 ∧ (vf = 0 ∨ (vfOf s vf).count ≠ 0) ∧ (sl ≠ 0 ∨ cl ≠ 0) ∧ (¬ok sl ∨ ¬ok cl) :=
  ⟨up, 0, 0x0411, by decide +kernel⟩

/-- The premises of RequestsAreAdmittedOrRefused meet (1 of 2). -/
theorem witness_RequestsAreAdmittedOrRefused :
    (∃ (s : State) (q : Nat) (x : Qp) (e : List Byte) (p : SrvParams) (opc : Nat), s.srv.params = some p ∧ Takes s q x e opc ∧ opc ∉ [1, 2, 3,
      4] ∧ (opc < 16 ∨ 22 < opc)) ∧
    (∃ (s : State) (q : Nat) (x : Qp) (e : List Byte) (p : SrvParams),
      let k : Taken := asTaken s q x e;
      ∃ (st : Nat), s.srv.params = some p ∧ Takes s q x e 1 ∧ generateStatus p k s = some st) ∧
    (∃ (s : State) (q : Nat) (x : Qp) (e : List Byte) (p : SrvParams),
      let k : Taken := asTaken s q x e;
      s.srv.params = some p ∧ Takes s q x e 1 ∧ generateStatus p k s = none ∧ (liveCtxs s).length < 2097152 ∧ FMap.wf none s.srv.ctxs = true) ∧
    (∃ (s : State) (q : Nat) (x : Qp) (e : List Byte) (p : SrvParams),
      let k : Taken := asTaken s q x e;
      ∃ (st : Nat), s.srv.params = some p ∧ Takes s q x e 4 ∧ forecastStatus p k s = some st) ∧
    (∃ (s : State) (q : Nat) (x : Qp) (e : List Byte) (p : SrvParams),
      let k : Taken := asTaken s q x e;
      s.srv.params = some p ∧ Takes s q x e 4 ∧ forecastStatus p k s = none ∧ (liveCtxs s).length < 2097152 ∧ FMap.wf none s.srv.ctxs = true) ∧
    (∃ (s : State) (q : Nat) (x : Qp) (e : List Byte) (p : SrvParams), s.srv.params = some p ∧ Takes s q x e 2 ∧ zeroElse e [(8, 4)] = false) ∧
    (∃ (s : State) (q : Nat) (x : Qp) (e : List Byte) (p : SrvParams), s.srv.params = some p ∧ Takes s q x e 2 ∧ zeroElse e [(8, 4)] = true ∧
      stepsRun s = true) ∧
    (∃ (s : State) (q : Nat) (x : Qp) (e : List Byte) (p : SrvParams), s.srv.params = some p ∧ Takes s q x e 2 ∧ zeroElse e [(8, 4)] = true ∧
      stepsRun s = false ∧ findRequest s q (ent e 8 4) = none) := by
  refine ⟨?_, ?_, ?_, ?_, ?_, ?_, ?_, ?_⟩
  · exact ⟨serving 5 (entry [(0, 5)]), 5, ring, entry [(0, 5)], params, 5, by unfold Takes; decide +kernel⟩
  · exact ⟨serving 5 (entry [(0, 1)]), 5, ring, entry [(0, 1)], params, 17, by unfold Takes; decide +kernel⟩
  · exact ⟨serving 5 generateE, 5, ring, generateE, params, by unfold Takes; decide +kernel⟩
  · exact ⟨serving 5 (entry [(0, 4)]), 5, ring, entry [(0, 4)], params, 16, by unfold Takes; decide +kernel⟩
  · exact ⟨forecasting 5 (entry [(0, 4), (3, 8)]), 5, ring, entry [(0, 4), (3, 8)], fcParams, by unfold Takes; decide +kernel⟩
  · exact ⟨serving 5 (entry [(0, 2), (4, 1)]), 5, ring, entry [(0, 2), (4, 1)], params, by unfold Takes; decide +kernel⟩
  · exact ⟨serving 5 (entry [(0, 2), (2, 9)]), 5, ring, entry [(0, 2), (2, 9)], params, by unfold Takes; decide +kernel⟩
  · exact ⟨forecasting 5 (entry [(0, 2), (2, 9)]), 5, ring, entry [(0, 2), (2, 9)], fcParams, by unfold Takes; decide +kernel⟩

/-- The premises of RequestsAreAdmittedOrRefused meet (2 of 2). -/
theorem witness_RequestsAreAdmittedOrRefused_2 :
    (∃ (s : State) (q : Nat) (x : Qp) (e : List Byte) (p : SrvParams) (c : Nat) (y : Ctx), s.srv.params = some p ∧ Takes s q x e 2 ∧ zeroElse e
      [(8, 4)] = true ∧ stepsRun s = false ∧ findRequest s q (ent e 8 4) = some (c, y) ∧ s.ctx c = some y) ∧
    (∃ (s : State) (q : Nat) (x : Qp) (e : List Byte) (p : SrvParams), s.srv.params = some p ∧ Takes s q x e 3 ∧ p.forecasting = true) ∧
    (∃ (s : State) (q : Nat) (x : Qp) (e : List Byte) (p : SrvParams), s.srv.params = some p ∧ Takes s q x e 3 ∧ p.forecasting = false ∧
      (zeroElse e [(8, 4), (12, 4), (16, 4)] = false ∨ p.vocab ≤ ent e 16 4)) ∧
    (∃ (s : State) (q : Nat) (x : Qp) (e : List Byte) (p : SrvParams), s.srv.params = some p ∧ Takes s q x e 3 ∧ zeroElse e [(8, 4), (12, 4),
      (16, 4)] = true ∧ ent e 16 4 < p.vocab ∧ stepsRun s = true) ∧
    (∃ (s : State) (q : Nat) (x : Qp) (e : List Byte) (p : SrvParams), s.srv.params = some p ∧ Takes s q x e 3 ∧ zeroElse e [(8, 4), (12, 4),
      (16, 4)] = true ∧ ent e 16 4 < p.vocab ∧ p.forecasting = false ∧ stepsRun s = false ∧ findRequest s q (ent e 8 4) = none) ∧
    (∃ (s : State) (p : SrvParams) (c : TakenCmd) (y : Ctx) (z : Qp) (i target : Nat), s.srv.params = some p ∧ findRequest s c.qp target = some
      (i, y) ∧ s.qp c.qp = some z ∧ z.error = false ∧ y.isForecast = true) ∧
    (∃ (s : State) (p : SrvParams) (c : TakenCmd) (y : Ctx) (z : Qp) (i target length : Nat), s.srv.params = some p ∧ findRequest s c.qp target
      = some (i, y) ∧ s.qp c.qp = some z ∧ z.error = false ∧ y.isForecast = false ∧ (length < y.shared ∨ y.committed < length ∨ y.committed <
      y.promptTotal)) ∧
    (∃ (s : State) (p : SrvParams) (c : TakenCmd) (y : Ctx) (z : Qp) (i target length j : Nat), s.srv.params = some p ∧ findRequest s c.qp
      target = some (i, y) ∧ s.qp c.qp = some z ∧ z.error = false ∧ y.isForecast = false ∧ y.shared ≤ length ∧ length ≤ y.committed ∧
      y.promptTotal ≤ y.committed ∧ j ≠ i) := by
  refine ⟨?_, ?_, ?_, ?_, ?_, ?_, ?_, ?_⟩
  · exact ⟨srvWith (serving 5 (entry [(0, 2), (2, 9)])) fun r => { r with st := .stopped, ctxs := [(3, some (request .decode))] }, 5, ring, entry [(0,
      2), (2, 9)], params, 3, request .decode, by unfold Takes; decide +kernel⟩
  · exact ⟨forecasting 5 (entry [(0, 3), (4, 999)]), 5, ring, entry [(0, 3), (4, 999)], fcParams, by unfold Takes; decide +kernel⟩
  · exact ⟨serving 5 (entry [(0, 3), (4, 1000)]), 5, ring, entry [(0, 3), (4, 1000)], params, by unfold Takes; decide +kernel⟩
  · exact ⟨serving 5 (entry [(0, 3), (4, 999)]), 5, ring, entry [(0, 3), (4, 999)], params, by unfold Takes; decide +kernel⟩
  · exact ⟨srvWith (serving 5 (entry [(0, 3), (4, 999)])) fun r => { r with st := .stopped }, 5, ring, entry [(0, 3), (4, 999)], params,
      by unfold Takes; decide +kernel⟩
  · exact ⟨srvWith (serving 5 []) fun r => { r with ctxs := [(3, some { request .decode with isForecast := true })] }, params, ⟨5, 1, 1, .ripBack 9 2
      3⟩, { request .decode with isForecast := true }, ring, 3, 9, by decide +kernel⟩
  · exact ⟨srvWith (serving 5 []) fun r => { r with ctxs := [(3, some (request .decode))] }, params, ⟨5, 1, 1, .ripBack 9 2 3⟩, request .decode, ring,
      3, 9, 5, by decide +kernel⟩
  · exact ⟨srvWith (serving 5 []) fun r => { r with ctxs := [(3, some (request .decode))] }, params, ⟨5, 1, 1, .ripBack 9 2 3⟩, request .decode, ring,
      3, 9, 4, 2, by decide +kernel⟩

/-- The premises of PrefixesAndMotifsComeAndGo meet (1 of 2). -/
theorem witness_PrefixesAndMotifsComeAndGo :
    (∃ (s : State) (q : Nat) (x : Qp) (e : List Byte) (p : SrvParams),
      let k : Taken := asTaken s q x e;
      ∃ (st : Nat) (ok : Bool), s.srv.params = some p ∧ Takes s q x e 18 ∧ registerPrefixStatus ok p k s = some st) ∧
    (∃ (s : State) (q : Nat) (x : Qp) (e : List Byte) (p : SrvParams),
      let k : Taken := asTaken s q x e;
      ∃ (ok : Bool), s.srv.params = some p ∧ Takes s q x e 18 ∧ registerPrefixStatus ok p k s = none ∧ (liveCtxs s).length < 2097152 ∧ FMap.wf { }
      s.srv.prefixes = true) ∧
    (∃ (s : State) (q : Nat) (x : Qp) (e : List Byte) (p : SrvParams),
      let k : Taken := asTaken s q x e;
      let fn : Nat := qpOwner s q;
      let slot : Option Nat := currentPrefix s (ent e 8 8);
      let checks : List (Bool × Nat) := [(onAdmin s k, 16), (zeroElse e [(8, 8)], 17), (slot.isSome, 18), ((s.prefixAt (slot.getD 0)).fn == fn,
        25)];
      ∃ (st : Nat), s.srv.params = some p ∧ Takes s q x e 19 ∧ firstFail checks = some st) ∧
    (∃ (s : State) (q : Nat) (x : Qp) (e : List Byte) (p : SrvParams),
      let k : Taken := asTaken s q x e;
      let fn : Nat := qpOwner s q;
      let slot : Option Nat := currentPrefix s (ent e 8 8);
      let checks : List (Bool × Nat) := [(onAdmin s k, 16), (zeroElse e [(8, 8)], 17), (slot.isSome, 18), ((s.prefixAt (slot.getD 0)).fn == fn,
        25)];
      ∃ (i : Nat), s.srv.params = some p ∧ Takes s q x e 19 ∧ firstFail checks = none ∧ slot = some i) ∧
    (∃ (s : State) (q : Nat) (x : Qp) (e : List Byte) (p : SrvParams),
      let k : Taken := asTaken s q x e;
      ∃ (st : Nat), s.srv.params = some p ∧ Takes s q x e 20 ∧ registerMotifStatus p k s = some st) ∧
    (∃ (s : State) (q : Nat) (x : Qp) (e : List Byte) (p : SrvParams),
      let k : Taken := asTaken s q x e;
      s.srv.params = some p ∧ Takes s q x e 20 ∧ registerMotifStatus p k s = none ∧ FMap.wf { } s.srv.motifs = true) ∧
    (∃ (s : State) (q : Nat) (x : Qp) (e : List Byte) (p : SrvParams),
      let k : Taken := asTaken s q x e;
      let fn : Nat := qpOwner s q;
      let slot : Option Nat := currentMotif s (ent e 16 4);
      let checks : List (Bool × Nat) := [(onAdmin s k, 16), (zeroElse e [(16, 4)], 17), (slot.isSome, 19), ((s.motif (slot.getD 0)).fn == fn,
        25)];
      ∃ (st : Nat), s.srv.params = some p ∧ Takes s q x e 21 ∧ firstFail checks = some st) ∧
    (∃ (s : State) (q : Nat) (x : Qp) (e : List Byte) (p : SrvParams),
      let k : Taken := asTaken s q x e;
      let fn : Nat := qpOwner s q;
      let slot : Option Nat := currentMotif s (ent e 16 4);
      let checks : List (Bool × Nat) := [(onAdmin s k, 16), (zeroElse e [(16, 4)], 17), (slot.isSome, 19), ((s.motif (slot.getD 0)).fn == fn,
        25)];
      ∃ (i : Nat), s.srv.params = some p ∧ Takes s q x e 21 ∧ firstFail checks = none ∧ slot = some i) := by
  refine ⟨?_, ?_, ?_, ?_, ?_, ?_, ?_, ?_⟩
  · exact ⟨serving 5 (entry [(0, 0x12)]), 5, ring, entry [(0, 0x12)], params, 16, true, by unfold Takes; decide +kernel⟩
  · exact ⟨serving 0 (entry [(0, 0x12), (5, 20), (6, 0x3000)]), 0, ring, entry [(0, 0x12), (5, 20), (6, 0x3000)], params, true,
      by unfold Takes; decide +kernel⟩
  · exact ⟨serving 0 (entry [(0, 0x13), (2, 7), (3, 0x100)]), 0, ring, entry [(0, 0x13), (2, 7), (3, 0x100)], params, 18,
      by unfold Takes; decide +kernel⟩
  · exact ⟨srvWith (serving 0 (entry [(0, 0x13), (2, 7), (3, 0x100)])) fun r => { r with prefixes := [(7, { registered := true, ready := true })] },
      0, ring, entry [(0, 0x13), (2, 7), (3, 0x100)], params, 7, by unfold Takes; decide +kernel⟩
  · exact ⟨serving 5 (entry [(0, 0x14)]), 5, ring, entry [(0, 0x14)], params, 16, by unfold Takes; decide +kernel⟩
  · exact ⟨{ serving 0 (entry [(0, 0x14), (2, 0x7000)]) with hbm := Mem.store [] 0x7000 (words [0x54574B4E, 1, 1, 0, 0, 0, 1, 0]) }, 0, ring, entry
      [(0, 0x14), (2, 0x7000)], params, by unfold Takes; decide +kernel⟩
  · exact ⟨serving 0 (entry [(0, 0x15), (4, 0x10007)]), 0, ring, entry [(0, 0x15), (4, 0x10007)], params, 19, by unfold Takes; decide +kernel⟩
  · exact ⟨srvWith (serving 0 (entry [(0, 0x15), (4, 0x10007)])) fun r => { r with motifs := [(7, { registered := true })] }, 0, ring, entry [(0,
      0x15), (4, 0x10007)], params, 7, by unfold Takes; decide +kernel⟩

/-- The premises of PrefixesAndMotifsComeAndGo meet (2 of 2). -/
theorem witness_PrefixesAndMotifsComeAndGo_2 :
    (∃ (s : State) (p : SrvParams) (i c : Nat) (y : Ctx) (z : Qp), s.srv.params = some p ∧ Live s = true ∧ List.find? (fun f => f.2.open &&
      f.2.isPrefix == some i && decide (f.2.committed = f.2.promptTotal)) (liveCtxs s) = some (c, y) ∧ s.qp y.qp = some z ∧ z.error = false) ∧
    (∃ (s : State) (p : SrvParams) (i n cid sqhd : Nat) (z : Qp), s.srv.params = some p ∧ Live s = true ∧ ((s.motif i).releasing = some (some
      (n, cid, sqhd))) ∧ s.qp n = some z ∧ z.error = false ∧ (((liveCtxs s).any fun f => f.2.open && f.2.motif != 0 && f.2.motif % 2 ^ 16 == i) =
      false)) := by
  refine ⟨?_, ?_⟩
  · exact ⟨srvWith (serving 0 []) fun r =>
      { r with prefixes := [(7, { registered := true })], ctxs := [(3, some { request .prefill with qp := 0, isPrefix := some 7 })] }, params, 7,
      3, { request .prefill with qp := 0, isPrefix := some 7 }, ring, by decide +kernel⟩
  · exact ⟨srvWith (serving 0 []) fun r => { r with motifs := [(7, { gen := 2, releasing := some (some (0, 9, 1)) })] }, params, 7, 0, 9, 1, ring,
      by decide +kernel⟩

/-- The premises of StepsBatchesAndCompletions meet (1 of 2). -/
theorem witness_StepsBatchesAndCompletions :
    (∃ (s : State) (p : SrvParams) (start : Nat),
      let records : List (SlotUse × StepRecord) := if s.srv.stepRunning = true then stepRecords s p else [];
      Live s = true ∧ s.srv.params = some p ∧ stepsRun s = true ∧ s.flt.stopped = false ∧ stopReq s = false ∧ BitVec.toNat s.ptc + 64 ≤ start ∧
      ((segmentCores s p).all fun e => coreFinished s e.1) = true ∧ (records.all fun e => recordOk s p e.1 e.2) = true) ∧
    (∃ (s : State) (p : SrvParams) (start : Nat),
      let records : List (SlotUse × StepRecord) := if s.srv.stepRunning = true then stepRecords s p else [];
      Live s = true ∧ s.srv.params = some p ∧ stepsRun s = true ∧ s.flt.stopped = false ∧ stopReq s = false ∧ BitVec.toNat s.ptc + 64 ≤ start ∧
      ((segmentCores s p).all fun e => coreFinished s e.1) = true ∧ (records.all fun e => recordOk s p e.1 e.2) = false) ∧
    (∃ (s : State) (p : SrvParams) (n c : Nat) (x : Ctx) (w start : Nat),
      let m : Model := modelOf p x;
      let k : Nat := m.maxSeries.min (x.series - x.nextSeries);
      Live s = true ∧ s.srv.params = some p ∧ s.srv.st = SrvSt.ready ∧ p.forecasting = true ∧ s.flt.stopped = false ∧ BitVec.toNat s.ptc + 64 ≤
      start ∧ FMap.look none s.srv.batches n = none ∧ minOn? (fun e => e.1 * 16 + e.2) s.srv.drainOrder = some (w, n) ∧ nextBatch s = some (c, x)
      ∧ k ≠ 0 ∧ hostReach s (qpOwner s x.qp) = true) ∧
    (∃ (s : State) (p : SrvParams) (b : Batch) (x : Ctx), Live s = true ∧ s.srv.params = some p ∧ s.ctx b.ctx = some x ∧ x.open = true ∧
      x.serial ≠ b.serial) ∧
    (∃ (s : State) (p : SrvParams) (b : Batch) (x : Ctx), Live s = true ∧ s.srv.params = some p ∧ s.ctx b.ctx = some x ∧ x.open = true ∧
      x.serial = b.serial ∧ hostReach s (qpOwner s x.qp) = true ∧ x.doneSeries + b.count < x.series) ∧
    (∃ (s : State) (p : SrvParams) (q : Nat) (x : Qp) (c : Compl), Live s = true ∧ s.srv.params = some p ∧ s.qp q = some x ∧ x.deleting = none ∧
      postable x = some c ∧ hostReach s (qpOwner s q) = true) ∧
    (∃ (s : State) (p : SrvParams) (q : Nat) (x : Qp) (c : Compl) (ok : Bool), Live s = true ∧ s.srv.params = some p ∧ s.qp q = some x ∧
      x.deleting = none ∧ postable x = some c ∧ (ok = false ∨ hostReach s (qpOwner s q) = false)) ∧
    (∃ (s : State) (p : SrvParams) (q : Nat) (x : Qp), Live s = true ∧ s.srv.params = some p ∧ s.qp q = some x ∧ postable x = none) := by
  refine ⟨?_, ?_, ?_, ?_, ?_, ?_, ?_, ?_⟩
  · exact ⟨srvWith (serving 5 []) fun r => { r with ctxs := [(3, some (request .decode)), (4, some { request .queued with committed := 0 })] },
      params, 64, by decide +kernel⟩
  · exact ⟨srvWith (serving 5 []) fun r => { r with ctxs := [(3, some (request .decode))], slots := [some ⟨3, 0, none⟩], stepRunning := true },
      params, 64, by decide +kernel⟩
  · exact ⟨srvWith (forecasting 5 []) fun r =>
      { r with drainOrder := [(0, 0), (0, 1)], ctxs := [(3, some { request .queued with isForecast := true, series := 9 })] }, fcParams, 0, 3,
      { request .queued with isForecast := true, series := 9 }, 0, 64, by decide +kernel⟩
  · exact ⟨srvWith (forecasting 5 []) fun r => { r with ctxs := [(3, some { request .queued with serial := 1 })] }, fcParams, ⟨3, 0, 0, 0, 4⟩,
      { request .queued with serial := 1 }, by decide +kernel⟩
  · exact ⟨srvWith (forecasting 5 []) fun r => { r with ctxs := [(3, some { request .queued with isForecast := true, series := 9 })] }, fcParams, ⟨3,
      0, 0, 0, 4⟩, { request .queued with isForecast := true, series := 9 }, by decide +kernel⟩
  · exact ⟨srvWith (serving 5 []) fun r => { r with qps := [(5, some { ring with ready := [{ cid := 9, status := 0, sqhd := 1 }], cqTail := 14 })] },
      params, 5, { ring with ready := [{ cid := 9, status := 0, sqhd := 1 }], cqTail := 14 }, { cid := 9, status := 0, sqhd := 1 },
      by decide +kernel⟩
  · exact ⟨srvWith (serving 5 []) fun r => { r with qps := [(5, some { ring with ready := [{ cid := 9, status := 0, sqhd := 1 }], cqTail := 14 })] },
      params, 5, { ring with ready := [{ cid := 9, status := 0, sqhd := 1 }], cqTail := 14 }, { cid := 9, status := 0, sqhd := 1 }, false,
      by decide +kernel⟩
  · exact ⟨serving 5 [], params, 5, ring, by decide +kernel⟩

/-- The premises of StepsBatchesAndCompletions meet (2 of 2). -/
theorem witness_StepsBatchesAndCompletions_2 :
    ∃ (s : State) (p : SrvParams) (failed : List Nat) (u : SlotUse) (x : Ctx) (z : Qp), s.srv.params = some p ∧ s.ctx u.ctx = some x ∧ x.open =
      true ∧ s.qp x.qp = some z ∧ z.error = false ∧ x.isForecast = false ∧ u.chunk = none ∧ x.isPrefix = none ∧ doomed s u.ctx x = false ∧
      failed.contains u.ctx = false ∧ hostReach s (qpOwner s x.qp) = true :=
  ⟨srvWith (serving 5 []) fun r => { r with ctxs := [(3, some (request .decode))] }, params, [], ⟨3, 0, none⟩, request .decode, ring,
    by decide +kernel⟩

/-- The premises of FunctionsResetAndInterrupt meet. -/
theorem witness_FunctionsResetAndInterrupt :
    (∃ (s : State) (v : Nat), Live s = true ∧ 1 ≤ v ∧ v ≤ 64) ∧
    (∃ (s : State) (speed width : Nat) (flit : Bool), Live s = true ∧ linkOk speed width flit = true) ∧
    (∃ (s : State) (speed width : Nat) (flit : Bool), Live s = true ∧ linkOk speed width flit = false) ∧
    (∃ (s : State) (fn : Nat) (i : Instr), Live s = true ∧ (fn = 0 ∧ i = Instr.hostIrqRearm ∨ 1 ≤ fn ∧ fn ≤ 64 ∧ i = Instr.vfIrqRearm fn) ∧
      fnCondition s fn = true ∧ (FMap.look { } s.fns fn).d3hot = false ∧ (FMap.look { } s.fns fn).msixEnable = true) ∧
    (∃ (s : State) (fn : Nat) (i : Instr), Live s = true ∧ (fn = 0 ∧ i = Instr.hostIrqRearm ∨ 1 ≤ fn ∧ fn ≤ 64 ∧ i = Instr.vfIrqRearm fn) ∧
      fnCondition s fn = false) ∧
    (∃ (s : State) (fn : Nat), Live s = true ∧ fn ≤ 64 ∧ (FMap.look { } s.fns fn).pba = true ∧ (FMap.look { } s.fns fn).d3hot = false ∧
      (FMap.look { } s.fns fn).msixEnable = true ∧ (FMap.look { } s.fns fn).funcMask = false) := by
  refine ⟨?_, ?_, ?_, ?_, ?_, ?_⟩
  · exact ⟨srvWith (serving 16 []) fun r => { r with vfs := [(1, { first := 16, count := 8 })] }, 1, by decide +kernel⟩
  · exact ⟨up, 6, 16, true, by decide +kernel⟩
  · exact ⟨up, 7, 16, false, by decide +kernel⟩
  · exact ⟨interrupts 64 false false vfCause, 64, .vfIrqRearm 64, by decide +kernel⟩
  · exact ⟨up, 0, .hostIrqRearm, by decide +kernel⟩
  · exact ⟨interrupts 64 false true vfCause, 64, by decide +kernel⟩

/-- The premises of TheInterruptControllerClaimsInOrder meet (1 of 2). -/
theorem witness_TheInterruptControllerClaimsInOrder :
    (∃ (s : State) (p : Nat),
      let x : Icu := s.icu p;
      ∃ (n : Nat), Live s = true ∧ writable s (Blk.icu p) = true ∧ n < 512 ∧ icuUsed n = true ∧ (x.src n).input = false ∧ icuInput s p n = true) ∧
    (∃ (s : State) (p : Nat),
      let x : Icu := s.icu p;
      ∃ (h n : Nat), Live s = true ∧ writable s (Blk.icu p) = true ∧ h < 4 ∧ n < 512 ∧ icuUsed n = true ∧ icuCandidate s p h n = true ∧ icuTop s p
      h < (x.src n).prio ∧ (∀ m < 512, m ≠ n → icuUsed m = true → icuCandidate s p h m = true → (x.src m).prio < (x.src n).prio ∨ (x.src m).prio =
      (x.src n).prio ∧ n < m) ∧ (∀ (m : Nat), (x.src m).prio ≤ 15)) ∧
    (∃ (s : State) (p : Nat),
      let x : Icu := s.icu p;
      ∃ (h : Nat), Live s = true ∧ writable s (Blk.icu p) = true ∧ h < 4 ∧ (∀ m < 512, icuUsed m = true → icuCandidate s p h m = true → (x.src
      m).prio ≤ icuTop s p h)) ∧
    (∃ (s : State) (p h : Nat), Live s = true ∧ writable s (Blk.icu p) = true ∧ h < 4 ∧ icuStack s p h = []) ∧
    (∃ (s : State) (p h n pr : Nat) (rest : List (Nat × Nat)), Live s = true ∧ writable s (Blk.icu p) = true ∧ h < 4 ∧ icuStack s p h = (n, pr)
      :: rest) ∧
    (∃ (s : State) (p : Nat),
      let x : Icu := s.icu p;
      ∃ (g e : Nat), Live s = true ∧ writable s (Blk.icu p) = true ∧ FMap.look none x.holdoff g = some e ∧ e ≤ BitVec.toNat s.time) ∧
    (∃ (s : State) (p target : Nat), Live s = true ∧ writable s (Blk.icu p) = true ∧ writable s (Blk.icu target) = true ∧ ((s.icu target).src
      (416 + p)).sense = 2) ∧
    (∃ (s : State) (p target : Nat), Live s = true ∧ writable s (Blk.icu p) = true ∧ writable s (Blk.icu target) = false) := by
  refine ⟨?_, ?_, ?_, ?_, ?_, ?_, ?_, ?_⟩
  · exact ⟨{ up with hostWaits := [(0, 0, 1)] }, 0, 386, by decide +kernel⟩
  · exact ⟨twoSources, 0, 3, 352, by refine ⟨?_, ?_, ?_, ?_, ?_, ?_, ?_, ?_, prios⟩ <;> decide +kernel⟩
  · exact ⟨up, 0, 3, by decide +kernel⟩
  · exact ⟨up, 0, 0, by decide +kernel⟩
  · exact ⟨nested, 0, 0, 9, 5, [(7, 3)], by decide +kernel⟩
  · exact ⟨up.setIcu 0 { holdoff := [(2, some 0)] }, 0, 2, 0, by decide +kernel⟩
  · exact ⟨up.setIcu 1 { srcs := [(416, { sense := 2 })] }, 0, 1, by decide +kernel⟩
  · exact ⟨(up.setDom 1 11 { st := .off }), 0, 1, by decide +kernel⟩

/-- The premises of TheInterruptControllerClaimsInOrder meet (2 of 2). -/
theorem witness_TheInterruptControllerClaimsInOrder_2 :
    (∃ (s : State) (p : Nat),
      let x : Icu := s.icu p;
      ∃ (n : Nat), Live s = true ∧ writable s (Blk.icu p) = true ∧ icuUsed n = true ∧ 2 ≤ (x.src n).sense) ∧
    (∃ (s : State) (p : Nat),
      let x : Icu := s.icu p;
      ∃ (n : Nat), Live s = true ∧ writable s (Blk.icu p) = true ∧ (icuUsed n = false ∨ (x.src n).sense < 2)) := by
  refine ⟨?_, ?_⟩
  · exact ⟨twoSources, 0, 352, by decide +kernel⟩
  · exact ⟨up, 0, 511, by decide +kernel⟩

/-- The premises of ReferencesPanelLinksSettingsAndTime meet (1 of 2). -/
theorem witness_ReferencesPanelLinksSettingsAndTime :
    (∃ (s : State), Live s = true ∧ s.clk.sysrefOk = true ∧ s.clk.holdover = none) ∧
    (∃ (s : State) (t0 : Nat), Live s = true ∧ s.clk.holdover = some t0 ∧ t0 + 1000000 ≤ BitVec.toNat s.time) ∧
    (∃ (s : State), Live s = true ∧ s.clk.refclkOk = true) ∧
    (∃ (s : State) (p i : Nat), Live s = true ∧ p < s.fuses.panels ∧ i < 3 ∧ (d2dNumber s p i).isSome = true ∧ (s.d2d p i).fails = 0 ∧ s.hold =
      none ∧ s.flt.stopped = false) ∧
    (∃ (s : State) (p i : Nat), Live s = true ∧ p < s.fuses.panels ∧ i < 3 ∧ (d2dNumber s p i).isSome = true ∧ 1 ≤ (s.d2d p i).fails ∧ (s.d2d p
      i).fails < 16) ∧
    (∃ (s : State) (p i : Nat), Live s = true ∧ p < s.fuses.panels ∧ i < 3 ∧ (d2dNumber s p i).isSome = true ∧ 16 ≤ (s.d2d p i).fails) ∧
    (∃ (s : State) (p i : Nat), Live s = true ∧ p < s.fuses.panels ∧ i < 3 ∧ (d2dNumber s p i).isSome = true ∧ (s.d2d p i).fails ≠ 0) ∧
    (∃ (s : State) (p i : Nat), Live s = true ∧ p < s.fuses.panels ∧ i < 3 ∧ (d2dNumber s p i).isSome = true ∧ (s.d2d p i).locked = true) := by
  refine ⟨?_, ?_, ?_, ?_, ?_, ?_, ?_, ?_⟩
  · exact ⟨up, by decide +kernel⟩
  · exact ⟨{ up with clk := { holdover := some 0 }, time := 1000000 }, 0, by decide +kernel⟩
  · exact ⟨up, by decide +kernel⟩
  · exact ⟨up, 0, 0, by decide +kernel⟩
  · exact ⟨d2dAs { fails := 15 }, 0, 0, by decide +kernel⟩
  · exact ⟨d2dAs { fails := 16 }, 0, 0, by decide +kernel⟩
  · exact ⟨{ d2dAs { fails := 16 } with hold := some (holdOf [(.d2d 0 0, false)] true) }, 0, 0, by decide +kernel⟩
  · exact ⟨d2dAs { locked := true }, 0, 0, by decide +kernel⟩

/-- The premises of ReferencesPanelLinksSettingsAndTime meet (2 of 2). -/
theorem witness_ReferencesPanelLinksSettingsAndTime_2 :
    (∃ (s : State) (v : Nat), Live s = true ∧ v < 3 ∧ allIdle s = true ∧ s.castSt ≠ CastSt.released ∧ v ≠ s.regN Blk.clk 64 % 4) ∧
    (∃ (s : State) (v : Nat), Live s = true ∧ (3 ≤ v ∨ allIdle s = false ∨ s.castSt = CastSt.released)) ∧
    (∃ (s : State), Live s = true ∧ s.clk.switching.isSome = true) ∧
    (∃ (s : State) (b : Bool), Live s = true ∧ (b = true ∨ s.castSt = CastSt.released)) ∧
    (∃ (s : State), Live s = true ∧ s.clk.slewOwed ≠ 0 ∧ 0 < s.clk.slewLeft) ∧
    (∃ (s : State), Live s = true ∧ s.clk.slewOwed ≠ 0 ∧ s.clk.slewLeft < 0) ∧
    (∃ (s : State), Live s = true ∧ s.pending = []) := by
  refine ⟨?_, ?_, ?_, ?_, ?_, ?_, ?_⟩
  · exact ⟨up, 2, by decide +kernel⟩
  · exact ⟨up, 3, by decide +kernel⟩
  · exact ⟨{ up with clk := { switching := some 0 } }, by decide +kernel⟩
  · exact ⟨up, true, by decide +kernel⟩
  · exact ⟨slewing 1, by decide +kernel⟩
  · exact ⟨slewing (-1), by decide +kernel⟩
  · exact ⟨up, by decide +kernel⟩

/-- The premises of ADomainWriteFollowsTheTable meet. -/
theorem witness_ADomainWriteFollowsTheTable :
    (∃ (s : State) (p i : Nat), Live s = true ∧ writable s (Blk.pwr p) = true ∧ i < 12 ∧ domRefused s p i = false) ∧
    (∃ (s : State) (p i : Nat), Live s = true ∧ writable s (Blk.pwr p) = true ∧ i < 12 ∧ (s.dom p i).st = DomSt.stopping ∧ (i = 10 → (s.stash
      p).cmd = none)) ∧
    (∃ (s : State) (p i : Nat), Live s = true ∧ writable s (Blk.pwr p) = true ∧ i < 12 ∧ (s.dom p i).st = DomSt.starting) ∧
    (∃ (s : State) (b : Blk) (p i : Nat), b.domain = some (p, i) ∧ blkPresent s b = true) := by
  refine ⟨?_, ?_, ?_, ?_⟩
  · exact ⟨up, 1, 10, by decide +kernel⟩
  · exact ⟨domAs 9 { st := .stopping, pendOn := true }, 0, 9, by decide +kernel⟩
  · exact ⟨domAs 0 { st := .starting, pendOff := true }, 0, 0, by decide +kernel⟩
  · exact ⟨up, .ply 31, 7, 8, by decide +kernel⟩

/-- The premises of ADomainInUseIsNotSwitchedOff meet. -/
theorem witness_ADomainInUseIsNotSwitchedOff :
    ∃ (s : State) (p i : Nat), Live s = true ∧ writable s (Blk.pwr p) = true ∧ i < 12 ∧ (s.castSt = CastSt.released ∨ (i < 8 ∧ ∃ j < 36, (s.core
      (coreKey p (36 * i + j))).stream.st = StreamSt.armed ∨ (s.core (coreKey p (36 * i + j))).stream.st = StreamSt.running) ∨ i = 11 ∧ p = 0 ∨ i
      = 11 ∧ ∃ j < 11, (s.dom p j).st ≠ DomSt.off) :=
  ⟨{ up with castSt := .released }, 0, 0, by decide +kernel⟩

/-- The premises of TheLimitAndTheMonitorsThrottle meet. -/
theorem witness_TheLimitAndTheMonitorsThrottle :
    (∃ (s : State) (w : Word), Live s = true ∧ 2600 ≤ BitVec.toNat w ∧ BitVec.toNat w ≤ 4800 ∧ s.fuses.panels = 8) ∧
    (∃ (s : State) (n : Nat), Live s = true ∧ n < 2 ^ 13 ∧ s.regN Blk.gov 64 % 2 ^ 13 < n) ∧
    (∃ (s : State) (n : Nat), Live s = true ∧ n < 2 ^ 13 ∧ n ≤ s.regN Blk.gov 64 % 2 ^ 13) ∧
    (∃ (s : State) (p : Nat) (r : Int), Live s = true ∧ p < s.fuses.panels ∧ -1024 ≤ r ∧ r ≤ 1023 ∧ BitVec.toNat s.time % 10000 = 0) ∧
    (∃ (s : State) (p : Nat) (r : Int), Live s = true ∧ p < s.fuses.panels ∧ -1024 ≤ r ∧ r ≤ 1023 ∧ BitVec.toNat s.time % 10000 ≠ 0) ∧
    (∃ (s : State) (p : Nat), Live s = true ∧ (s.thm p).duty ≠ 0 ∧ (s.thm p).withdrawAt = none ∧ (s.thm p).entry + 20000 * (s.thm p).frames ≤
      BitVec.toNat s.time ∧ s.flt.stopped = false ∧ s.hold = none) ∧
    (∃ (s : State) (p e : Nat), Live s = true ∧ (s.thm p).withdrawAt = some e ∧ e ≤ BitVec.toNat s.time) ∧
    (∃ (s : State) (p : Nat), Live s = true ∧ (s.thm p).duty ≠ 0 ∧ (s.thm p).entry + 1000000 * ((s.thm p).updates + 1) ≤ BitVec.toNat s.time) := by
  refine ⟨?_, ?_, ?_, ?_, ?_, ?_, ?_, ?_⟩
  · exact ⟨up, 2600, by decide +kernel⟩
  · exact ⟨up, 4801, by decide +kernel⟩
  · exact ⟨up, 4800, by decide +kernel⟩
  · exact ⟨up, 7, 1023, by decide +kernel⟩
  · exact ⟨{ up with time := 9999 }, 0, 0, by decide +kernel⟩
  · exact ⟨up.setThm 0 { dutyT := 1 }, 0, by decide +kernel⟩
  · exact ⟨{ up.setThm 0 { dutyT := 1, withdrawAt := some 0 } with hold := some (holdOf [(.thermal 0, false)] true) }, 0, 0, by decide +kernel⟩
  · exact ⟨throttling 800, 0, by decide +kernel⟩

/-- The premises of AStopFreezesThePackage meet. -/
theorem witness_AStopFreezesThePackage :
    (∃ (s : State) (t0 : Nat), Live s = true ∧ s.flt.stopped = false ∧ s.flt.reqSince = some t0 ∧ stopReq s = true ∧ t0 + 8000 ≤ BitVec.toNat
      s.time) ∧
    (∃ (s : State), Live s = true ∧ s.flt.stopped = true) ∧
    (∃ (s : State), Live s = true ∧ stopReq s = false ∧ s.flt.bbBusy = false ∧ s.bind = none ∧ s.flt.needBind = false) ∧
    (∃ (s : State), Live s = true ∧ (stopReq s = true ∨ s.flt.bbBusy = true ∨ s.bind ≠ none ∨ s.flt.needBind = true)) := by
  refine ⟨?_, ?_, ?_, ?_⟩
  · exact ⟨{ up.setReg .flt 0x14 16 with flt := { reqSince := some 0 }, time := 8000 }, 0, by decide +kernel⟩
  · exact ⟨{ up with flt := { stopped := true } }, by decide +kernel⟩
  · exact ⟨{ up with flt := { stopped := true } }, by decide +kernel⟩
  · exact ⟨{ up with flt := { stopped := true, needBind := true } }, by decide +kernel⟩

/-- The premises of RecordersBlackBoxTestsAndWatchdogs meet (1 of 2). -/
theorem witness_RecordersBlackBoxTestsAndWatchdogs :
    (∃ (s : State) (r : Nat) (tr : Trig), Live s = true ∧ (FMap.look { } s.evrs r).pending = some tr) ∧
    (∃ (s : State) (r : Nat),
      let e : Evr := FMap.look { } s.evrs r;
      Live s = true ∧ r ≤ 8 ∧ s.regBit (evrBlk r) 68 5 = true ∧ blkPower s (evrBlk r) = 2 ∧ e.frozen = false ∧ e.pending = none) ∧
    (∃ (s : State) (r : Nat),
      let e : Evr := FMap.look { } s.evrs r;
      Live s = true ∧ r ≤ 8 ∧ s.regBit (evrBlk r) 68 5 = true ∧ blkPower s (evrBlk r) = 2 ∧ (e.frozen = true ∨ e.pending ≠ none)) ∧
    (∃ (s : State), Live s = true ∧ s.flt.stopped = true ∧ s.regBit Blk.flt 64 4 = true ∧ s.flt.copied = false ∧ s.flt.bbBusy = false ∧
      s.pins.thermtrip = false ∧ s.flt.box = []) ∧
    (∃ (s : State) (b : BoxCopy), Live s = true ∧ s.flt.bbBusy = true ∧ s.flt.box = [b] ∧ b.slot < 8 ∧ b.records.length + 4096 ≤ 2 ^ 22) ∧
    (∃ (s : State) (i k start len : Nat), Live s = true ∧ istNext s i = some (k, start, len) ∧ istMayStart s = true ∧ start ≤ BitVec.toNat
      s.ptc) ∧
    (∃ (s : State) (p : Nat), Live s = true ∧ writable s (Blk.cc p) = true ∧ s.regN (Blk.cc p) 68 % 2 ^ 16 ≠ 0 ∧ FMap.look 0 s.ccKick p + s.regN
      (Blk.cc p) 68 % 2 ^ 16 * 1000000 ≤ BitVec.toNat s.time) ∧
    (∃ (s : State) (p a : Nat), Live s = true ∧ writable s (Blk.cc p) = true ∧ a < 2097152) := by
  refine ⟨?_, ?_, ?_, ?_, ?_, ?_, ?_, ?_⟩
  · exact ⟨triggered, 0, ⟨1, 2, 5, 0, 0, 0, 0⟩, by decide +kernel⟩
  · exact ⟨up.setRegN .evrPkg 0x44 32, 8, by decide +kernel⟩
  · exact ⟨{ up.setRegN .evrPkg 0x44 32 with evrs := [(8, { frozen := true })] }, 8, by decide +kernel⟩
  · exact ⟨{ up.setRegN .flt 0x40 16 with flt := { stopped := true } }, by decide +kernel⟩
  · exact ⟨{ up with flt := { bbBusy := true, box := [⟨0, 1, 9, [5, 6]⟩] } }, ⟨0, 1, 9, [5, 6]⟩, by decide +kernel⟩
  · exact ⟨{ window with jobLive := true }, 0, 0, 0, 4096, by decide +kernel⟩
  · exact ⟨{ up.setRegN (.cc 7) 0x44 1 with time := 1000000 }, 7, by decide +kernel⟩
  · exact ⟨up, 0, 0x1FFFFF, by decide +kernel⟩

/-- The premises of RecordersBlackBoxTestsAndWatchdogs meet (2 of 2). -/
theorem witness_RecordersBlackBoxTestsAndWatchdogs_2 :
    (∃ (s : State) (k : Nat) (w : IstWin),
      let x : Nat := BitVec.toNat s.ptc - (w.start + 32);
      ptcRuns s = true ∧ s.flt.istOpen = [(k, [w])] ∧ s.regBit Blk.flt 112 31 = true ∧ (BitVec.toNat s.ptc < w.start + 32 ∨ x % 4032 ≠ 4031 ∨
      (w.len - 64) / 4032 ≤ x / 4032)) ∧
    (∃ (s : State) (k : Nat) (w : IstWin),
      let x : Nat := BitVec.toNat s.ptc - (w.start + 32);
      ∃ (j : Nat), ptcRuns s = true ∧ s.flt.istOpen = [(k, [w])] ∧ s.regBit Blk.flt 112 31 = true ∧ w.start + 32 ≤ BitVec.toNat s.ptc ∧ x % 4032 =
      4031 ∧ x / 4032 < (w.len - 64) / 4032 ∧ j ≠ k) ∧
    (∃ (s : State) (k : Nat) (w : IstWin),
      let x : Nat := BitVec.toNat s.ptc - (w.start + 32);
      ptcRuns s = true ∧ s.flt.istOpen = [(k, [w])] ∧ s.regBit Blk.flt 112 31 = true ∧ w.start + 32 ≤ BitVec.toNat s.ptc ∧ x % 4032 = 4031 ∧ x /
      4032 < (w.len - 64) / 4032 ∧ w.bad ≠ some (x / 4032)) ∧
    (∃ (s : State) (k : Nat) (w : IstWin),
      let x : Nat := BitVec.toNat s.ptc - (w.start + 32);
      ptcRuns s = true ∧ s.flt.istOpen = [(k, [w])] ∧ s.regBit Blk.flt 112 31 = true ∧ w.start + 32 ≤ BitVec.toNat s.ptc ∧ x % 4032 = 4031 ∧ x /
      4032 < (w.len - 64) / 4032 ∧ w.bad = some (x / 4032)) := by
  refine ⟨?_, ?_, ?_, ?_⟩
  · exact ⟨{ up.setRegN .flt 0x70 (2 ^ 31) with castSt := .released, jobLive := true, ptc := 7, flt := { istOpen := [(0, [⟨0, 4096 + 64, none⟩])] } },
      0, ⟨0, 4096 + 64, none⟩, by decide +kernel⟩
  · exact ⟨{ up.setRegN .flt 0x70 (2 ^ 31) with castSt := .released, jobLive := true, ptc := 4063, flt := { istOpen := [(0, [⟨0, 4096 + 64, none⟩])] } },
      0, ⟨0, 4096 + 64, none⟩, 1, by decide +kernel⟩
  · exact ⟨{ up.setRegN .flt 0x70 (2 ^ 31) with castSt := .released, jobLive := true, ptc := 4063, flt := { istOpen := [(0, [⟨0, 4096 + 64, none⟩])] } },
      0, ⟨0, 4096 + 64, none⟩, by decide +kernel⟩
  · exact ⟨{ up.setRegN .flt 0x70 (2 ^ 31) with castSt := .released, jobLive := true, ptc := 4063, flt := { istOpen := [(0, [⟨0, 4096 + 64, some 0⟩])] } },
      0, ⟨0, 4096 + 64, some 0⟩, by decide +kernel⟩

/-- The premises of ManagementAnswersOverItsBindings meet (1 of 2). -/
theorem witness_ManagementAnswersOverItsBindings :
    (∃ (s : State) (b : MctpBinding) (eid : Nat), Live s = true ∧ bindingUp s b = true ∧ eid % 256 ≠ 0 ∧ eid % 256 ≠ 255) ∧
    (∃ (s : State) (b : MctpBinding) (eid typ : Nat) (i : Instr), Live s = true ∧ bindingUp s b = false ∧ i ∈ [Instr.setEndpointId b eid,
      Instr.getEndpointId b, Instr.getEndpointUuid b, Instr.getMctpVersionSupport b typ, Instr.getMessageTypeSupport b, Instr.setEventReceiver b
      eid]) ∧
    (∃ (s : State) (w : Nat), Live s = true ∧ fwRuns s = true ∧ 2600 ≤ w ∧ w ≤ 4800) ∧
    (∃ (s : State) (w : Nat), Live s = true ∧ (w < 2600 ∨ 4800 < w)) ∧
    (∃ (s : State), Live s = true ∧ s.regBit Blk.mgt 64 1 = true ∧ s.mgmt.bus ≠ 2) ∧
    (∃ (s : State) (t0 : Nat), Live s = true ∧ s.mgmt.readyAt = some t0 ∧ s.mgmt.bus = 0 ∧ s.regBit Blk.mgt 64 2 = true ∧ t0 + 1000000000 ≤
      BitVec.toNat s.time) ∧
    (∃ (s : State), Live s = true ∧ s.boot.stage = Stage.ready ∧ s.fuses.svnMin < s.boot.svn) ∧
    (∃ (s : State), Live s = true ∧ (s.boot.stage ≠ Stage.ready ∨ s.boot.svn ≤ s.fuses.svnMin)) := by
  refine ⟨?_, ?_, ?_, ?_, ?_, ?_, ?_, ?_⟩
  · exact ⟨{ up with mgmt := { bus := 1 } }, .i3c, 254, by decide +kernel⟩
  · exact ⟨up, .smbus, 3, 3, .getMctpVersionSupport .smbus 3, by decide +kernel⟩
  · exact ⟨up, 2600, by decide +kernel⟩
  · exact ⟨up, 4801, by decide +kernel⟩
  · exact ⟨up.setRegN .mgt 0x40 2, by decide +kernel⟩
  · exact ⟨{ up.setRegN .mgt 0x40 4 with mgmt := { readyAt := some 0 }, time := 1000000000 }, 0, by decide +kernel⟩
  · exact ⟨{ up with boot := { stage := .ready, svn := 1 } }, by decide +kernel⟩
  · exact ⟨up, by decide +kernel⟩

/-- The premises of ManagementAnswersOverItsBindings meet (2 of 2). -/
theorem witness_ManagementAnswersOverItsBindings_2 :
    (∃ (s : State) (p h : Nat), Live s = true ∧ p < s.fuses.panels ∧ h < 4 ∧ domOn s p 11 = true ∧ FMap.look 0 s.harts (4 * p + h) ≠ 0) ∧
    (∃ (s : State) (p h : Nat), Live s = true ∧ p < s.fuses.panels ∧ h < 4 ∧ domOn s p 11 = true ∧ FMap.look 0 s.harts (4 * p + h) = 3) ∧
    (∃ (s : State) (p h : Nat), Live s = true ∧ p < s.fuses.panels ∧ h < 4 ∧ domOn s p 11 = true ∧ FMap.look 0 s.harts (4 * p + h) ≠ 3) := by
  refine ⟨?_, ?_, ?_⟩
  · exact ⟨{ up with harts := [(3, 1)] }, 0, 3, by decide +kernel⟩
  · exact ⟨{ up with harts := [(3, 3)] }, 0, 3, by decide +kernel⟩
  · exact ⟨{ up with harts := [(3, 1)] }, 0, 3, by decide +kernel⟩

/-- The premises of AttestationSignsItsTranscript meet. -/
theorem witness_AttestationSignsItsTranscript :
    (∃ (s : State) (via : SpdmPath) (req : List Byte), Live s = true ∧ pathUp s via = true ∧ requestOk 132 req = true) ∧
    (∃ (s : State) (via : SpdmPath) (req : List Byte) (i : Instr) (code : Nat) (d : List Byte), Live s = true ∧ pathUp s via = true ∧ (i =
      Instr.getCapabilities via req ∧ code = 225 ∧ d = [] ∨ i = Instr.negotiateAlgorithms via req ∧ code = 227 ∧ d = [] ∨ i = Instr.getDigests via
      req ∧ code = 129 ∧ d = [] ∨ ∃ slot, i = Instr.getCertificate via slot req ∧ code = 130 ∧ d = leBytes 1 slot) ∧ requestOk code req = true) ∧
    (∃ (s : State) (via : SpdmPath) (req : List Byte) (i : Instr) (code : Nat) (d : List Byte), Live s = true ∧ pathUp s via = true ∧ ((∃ slot,
      i = Instr.challenge via slot req ∧ code = 131 ∧ d = leBytes 1 slot) ∨ ∃ slot ix, i = Instr.getMeasurements via slot ix req ∧ code = 224 ∧ d
      = leBytes 1 slot ++ measurements s ix) ∧ requestOk code req = true) ∧
    (∃ (s : State) (via : SpdmPath) (req h : List Byte), Live s = true ∧ pathUp s via = true ∧ requestOk 254 req = true ∧ s.mgmt.signed = some
      h) ∧
    (∃ (s : State) (via : SpdmPath) (req : List Byte) (i : Instr) (code slot ix : Nat), Live s = true ∧ pathUp s via = true ∧ (i, code) ∈
      [(Instr.getVersion via req, 132), (Instr.getCapabilities via req, 225), (Instr.negotiateAlgorithms via req, 227), (Instr.getDigests via req,
      129), (Instr.getCertificate via slot req, 130), (Instr.challenge via slot req, 131), (Instr.getMeasurements via slot ix req, 224),
      (Instr.getSlhSig via req, 254)] ∧ requestOk code req = false) := by
  refine ⟨?_, ?_, ?_, ?_, ?_⟩
  · exact ⟨up, .doe, [0x12, 132, 0, 0], by exact ⟨by decide +kernel, rfl, requestOk_short (by decide) (by decide) rfl⟩⟩
  · exact ⟨{ up with mgmt := { transcript := [1, 2] } }, .doe, [0x12, 129, 0, 0], .getDigests .doe [0x12, 129, 0, 0], 129, [],
      by exact ⟨by decide +kernel, rfl, .inr (.inr (.inl ⟨rfl, rfl, rfl⟩)), requestOk_short (by decide) (by decide) rfl⟩⟩
  · exact ⟨{ up with mgmt := { transcript := [1, 2] } }, .doe, [0x12, 131, 0, 0], .challenge .doe 7 [0x12, 131, 0, 0], 131, leBytes 1 7,
      by exact ⟨by decide +kernel, rfl, .inl ⟨7, rfl, rfl, rfl⟩, requestOk_short (by decide) (by decide) rfl⟩⟩
  · exact ⟨{ up with mgmt := { signed := some [1, 2] } }, .doe, [0x12, 254, 0, 0], [1, 2],
      by exact ⟨by decide +kernel, rfl, requestOk_short (by decide) (by decide) rfl, rfl⟩⟩
  · exact ⟨up.setRegN .mgt 0x40 8, .mctp .vdm, [1], .getVersion (.mctp .vdm) [1], 132, 0, 0, by decide +kernel⟩

/-- The premises of RegisterAccessesReadAndWrite meet. -/
theorem witness_RegisterAccessesReadAndWrite :
    (∃ (s : State) (addr : Nat) (b : Blk) (off : Nat), Live s = true ∧ blockAt addr = some (b, off) ∧ addr < 1073741824 ∧ addr % 4 = 0 ∧
      ¬(268435456 ≤ addr ∧ addr < 536870912 ∧ 25165824 ≤ (addr - 268435456) % 33554432 ∧ (addr - 268435456) % 33554432 < 27262976) ∧ (∃ p, b =
      Blk.num p ∨ b = Blk.sa p ∨ b = Blk.eng p ∨ b = Blk.skn p ∨ b = Blk.thm p ∨ b = Blk.ni p ∨ b = Blk.d2d p ∨ b = Blk.pnl p ∨ b = Blk.mem) ∧ 64
      ≤ off ∧ writable s b = true ∧ (b.fields off).isEmpty = false) ∧
    (∃ (s : State) (addr : Nat) (b : Blk) (off : Nat),
      let latch : State → Option (Nat × Word) := fun t => (FMap.look { } t.fns 0).latch;
      let counts : Bool := (b.fields off).any fun x => x.acc == AccessCode.rc;
      Live s = true ∧ blockAt addr = some (b, off) ∧ addr < 1073741824 ∧ addr % 4 = 0 ∧ ¬(268435456 ≤ addr ∧ addr < 536870912 ∧ 25165824 ≤ (addr -
      268435456) % 33554432 ∧ (addr - 268435456) % 33554432 < 27262976) ∧ (∀ (p : Nat), b ≠ Blk.icu p) ∧ latch s = none ∧ (counts = false ∨
      writable s b = false)) ∧
    (∃ (s : State) (addr : Nat) (b : Blk) (off : Nat),
      let latch : State → Option (Nat × Word) := fun t => (FMap.look { } t.fns 0).latch;
      let counts : Bool := (b.fields off).any fun x => x.acc == AccessCode.rc;
      Live s = true ∧ blockAt addr = some (b, off) ∧ addr < 1073741824 ∧ addr % 4 = 0 ∧ ¬(268435456 ≤ addr ∧ addr < 536870912 ∧ 25165824 ≤ (addr -
      268435456) % 33554432 ∧ (addr - 268435456) % 33554432 < 27262976) ∧ (∀ (p : Nat), b ≠ Blk.icu p) ∧ latch s = none ∧ counts = true ∧ writable
      s b = true) ∧
    (∃ (s : State) (addr : Nat) (b : Blk) (off : Nat),
      let latch : State → Option (Nat × Word) := fun t => (FMap.look { } t.fns 0).latch;
      ∃ (held : Word), Live s = true ∧ blockAt addr = some (b, off) ∧ addr < 1073741824 ∧ addr % 4 = 0 ∧ ¬(268435456 ≤ addr ∧ addr < 536870912 ∧
      25165824 ≤ (addr - 268435456) % 33554432 ∧ (addr - 268435456) % 33554432 < 27262976) ∧ latch s = some (addr, held) ∧ blkPresent s b = true) ∧
    (∃ (s : State) (addr : Nat) (b : Blk) (off a size : Nat), Live s = true ∧ blockAt addr = some (b, off) ∧ addr < 1073741824 ∧ addr % 4 = 0 ∧
      ¬(268435456 ≤ addr ∧ addr < 536870912 ∧ 25165824 ≤ (addr - 268435456) % 33554432 ∧ (addr - 268435456) % 33554432 < 27262976) ∧ accessOk a
      size = false) := by
  refine ⟨?_, ?_, ?_, ?_, ?_⟩
  · exact ⟨up, (Blk.thm 0).base + 0x44, .thm 0, 0x44, by refine ⟨?_, ?_, ?_, ?_, ?_, ⟨0, by simp⟩, ?_⟩ <;> decide +kernel⟩
  · exact ⟨up, 0x10000010, .pnl 0, 0x10, by refine ⟨?_, ?_, ?_, ?_, ?_, nofun, ?_⟩ <;> decide +kernel⟩
  · exact ⟨up, 0x10400078, .str 0 0, 0x78, by refine ⟨?_, ?_, ?_, ?_, ?_, nofun, ?_⟩ <;> decide +kernel⟩
  · exact ⟨{ up with fns := [(0, { latch := some (0x10000010, 7) })] }, 0x10000010, .pnl 0, 0x10, 7, by decide +kernel⟩
  · exact ⟨up, 0x10000010, .pnl 0, 0x10, 2, 4, by decide +kernel⟩

/-- The premises of AbsentPanelsAndSlotsAreSilent meet. -/
theorem witness_AbsentPanelsAndSlotsAreSilent :
    ∃ (s : State) (fn p w size : Nat),
      let addr : Nat := 268435456 + 33554432 * p + w;
      Live s = true ∧ (fn = 0 ∨ 65 ≤ fn) ∧ p < 8 ∧ w < 33554432 ∧ (s.fuses.panels ≤ p ∨ ∃ c < 288, slotEnabled s p c = false ∧ 65536 * (64 + c) ≤
      w ∧ w < 65536 * (65 + c)) ∧ accessOk addr size = true :=
  ⟨{ up with fuses := { up.fuses with grade := .h1024 } }, 72, 4, 0, 4, by decide +kernel⟩

/-- The premises of FramesAreAdmittedInOrderAndSlotsSend meet, for frames that arrive. -/
theorem witness_FramesAreAdmittedInOrder :
    (∃ (s : State) (bytes : List Byte), Live s = true ∧ writable s (.ply 0) = true ∧ (s.link 0).st = .up ∧ crcOk bytes = false
      ∧ (s.link 0).badRun + 1 < 32) ∧
    (∃ (s : State) (bytes : List Byte), Live s = true ∧ writable s (.ply 0) = true ∧ (s.link 0).st = .up ∧ crcOk bytes = false
      ∧ 32 ≤ (s.link 0).badRun + 1) ∧
    (∃ (s : State) (bytes : List Byte) (f : SentFrame), FrameComes s bytes f ∧ f.ackClass = 0 ∧ f.cls = 1 ∧ f.seq = (s.link 0).data.expected
      ∧ f.seq < 4096 ∧ (s.link 0).data.used < classDepth 0 ∧ (s.link 0).into = none) ∧
    (∃ (s : State) (bytes : List Byte) (f : SentFrame), FrameComes s bytes f ∧ f.ackClass = 0 ∧ f.cls = 1 ∧ f.seq = (s.link 0).data.expected
      ∧ f.seq < 4096 ∧ classDepth 0 ≤ (s.link 0).data.used ∧ (s.link 0).into = none) ∧
    (∃ (s : State) (bytes : List Byte) (f : SentFrame), FrameComes s bytes f ∧ f.ackClass = 0 ∧ f.cls = 1 ∧ (s.link 0).data.expected < 4096
      ∧ 1 ≤ ((s.link 0).data.expected + 4096 - f.seq) % 4096 ∧ ((s.link 0).data.expected + 4096 - f.seq) % 4096 ≤ 2048 ∧ (s.link 0).into = none) ∧
    (∃ (s : State) (bytes : List Byte) (f : SentFrame), FrameComes s bytes f ∧ f.ackClass = 0 ∧ f.cls = 1 ∧ (s.link 0).data.expected < 4096
      ∧ 2048 < ((s.link 0).data.expected + 4096 - f.seq) % 4096 ∧ (s.link 0).data.nakGap = false ∧ (s.link 0).into = none) ∧
    (∃ (s : State) (bytes : List Byte) (f : SentFrame) (pre post : List TxFrame) (y : TxFrame), FrameComes s bytes f ∧ f.cls = 0 ∧ f.ackClass = 1
      ∧ (s.link 0).data.unacked = pre ++ y :: post ∧ y.seq = f.ack ∧ ∀ z ∈ pre, z.seq ≠ f.ack) := by
  unfold FrameComes
  simp only [crcOk_fold]
  refine ⟨?_, ?_, ?_, ?_, ?_, ?_, ?_⟩
  · exact ⟨linked { st := .up, badRun := 30 }, List.replicate 268 1, by decide +kernel⟩
  · exact ⟨linked { st := .up, badRun := 31 }, List.replicate 268 1, by decide +kernel⟩
  · exact ⟨linked { st := .up, data := { expected := 4095, used := 2047 } }, frame 1 4095 0 0, readFrame (frame 1 4095 0 0),
      by unfold frame; rw [wire_fold]; decide +kernel⟩
  · exact ⟨linked { st := .up, data := { used := 2048 } }, frame 1 0 0 0, readFrame (frame 1 0 0 0), by unfold frame; rw [wire_fold]; decide +kernel⟩
  · exact ⟨linked { st := .up, data := { expected := 3 } }, frame 1 1 0 0, readFrame (frame 1 1 0 0), by unfold frame; rw [wire_fold]; decide +kernel⟩
  · exact ⟨linked { st := .up }, frame 1 1 0 0, readFrame (frame 1 1 0 0), by unfold frame; rw [wire_fold]; decide +kernel⟩
  · exact ⟨linked { st := .up, data := { unacked := [txFrame 0, txFrame 1, txFrame 2] } }, frame 0 0 1 1, readFrame (frame 0 0 1 1), [txFrame 0],
      [txFrame 2], txFrame 1, by unfold frame; rw [wire_fold]; decide +kernel⟩

/-- The premises of StashCommandsStartOneAtATimeAndEnd meet, for PROGRAM and VERIFY. -/
theorem witness_StashProgramsAndVerifies :
    (∃ (s : State) (c : StsCmd) (ph : Nat), StashRuns s c ∧ c.op = 2 ∧ (∀ j < c.pages, isProgrammed s (c.saddr + 4096 * j) = false)
      ∧ leastWorn (s.stash 0) = some ph) ∧
    (∃ (s : State) (c : StsCmd), StashRuns s c ∧ c.op = 2 ∧ (∀ j < c.pages, isProgrammed s (c.saddr + 4096 * j) = false)
      ∧ leastWorn (s.stash 0) = none) ∧
    (∃ (s : State) (c : StsCmd), StashRuns s c ∧ c.op = 2 ∧ isProgrammed s c.saddr = true) ∧
    (∃ (s : State) (c : StsCmd), StashRuns s c ∧ c.op = 4 ∧ s.hbm.bytes c.haddr (4096 * c.pages) = s.stashMem.bytes c.saddr (4096 * c.pages)) ∧
    (∃ (s : State) (c : StsCmd), StashRuns s c ∧ c.op = 4 ∧ s.hbm.bytes c.haddr 4096 ≠ s.stashMem.bytes c.saddr 4096) := by
  have quiet (s : State) (c : StsCmd) (h : s.hbmStacks = []) (g : Live s = true ∧ writable s (.sts 0) = true ∧ (s.stash 0).cmd = some c
      ∧ stsRangeOk s 0 c = true ∧ domOn s (hbmPlace s c.haddr).1 9 = true) : StashRuns s c :=
    ⟨g.1, g.2.1, g.2.2.1, g.2.2.2.1, g.2.2.2.2, fun q st => by simp [State.hbmStack, h]⟩
  refine ⟨?_, ?_, ?_, ?_, ?_⟩
  · exact ⟨stashRuns ⟨2, 0x2000, 0, 2⟩, ⟨2, 0x2000, 0, 2⟩, 8192, quiet _ _ rfl (by decide +kernel), by decide +kernel⟩
  · exact ⟨up.setStash 0 { cmd := some ⟨2, 0x2000, 0, 2⟩, nextSpare := 2 ^ 20 }, ⟨2, 0x2000, 0, 2⟩, quiet _ _ rfl (by decide +kernel),
      by decide +kernel⟩
  · exact ⟨up.setStash 0 { cmd := some ⟨2, 0x2000, 0, 2⟩, programmed := [(2, true)] }, ⟨2, 0x2000, 0, 2⟩, quiet _ _ rfl (by decide +kernel),
      by decide +kernel⟩
  · exact ⟨up.setStash 0 { cmd := some ⟨4, 0, 0, 2⟩ }, ⟨4, 0, 0, 2⟩, quiet _ _ rfl (by decide +kernel), rfl, rfl⟩
  · exact ⟨stashRuns ⟨4, 0, 0, 1⟩, ⟨4, 0, 0, 1⟩, quiet _ _ rfl (by decide +kernel), by decide +kernel⟩

end Sys2Proof.Tests
end

section
/-! PROOFS. Absent panels and disabled slots (R4, R22): no address of theirs names a block that is present, so an access there
does no more than release the function's latch and, for a read, latch the half that follows. -/

namespace Sys2Proof.Machine

/-! ## What leaves everything but the functions' interrupt side and the messages -/

/-- A part of the state that lies outside functions and messages is the same in two states that differ in these alone. -/
theorem part_of_sansMessages {α : Type} {s t : State} (part : State → α) (hpart : ∀ x : State, part x.sansMessages = part x)
    (h : t.sansMessages = s.sansMessages) : part t = part s := by
  rw [← hpart t, h, hpart s]

/-- A state that differs in nothing but functions and messages is quiet. -/
theorem quiet_of_sansMessages {s t : State} (h : t.sansMessages = s.sansMessages) : Quiet s t := by
  have keeps {α : Type} (part : State → α) (hpart : ∀ x : State, part x.sansMessages = part x) : part t = part s :=
    part_of_sansMessages part hpart h
  exact ⟨⟨keeps State.skein fun _ => rfl, keeps State.hbm fun _ => rfl, keeps State.stashMem fun _ => rfl, keeps State.sram fun _ => rfl,
    keeps State.hostMem fun _ => rfl, keeps State.bootMem fun _ => rfl, keeps State.bbMem fun _ => rfl⟩, keeps State.cores fun _ => rfl⟩

@[simp] theorem sansMessages_dropLatch (fn : Nat) (s : State) : (dropLatch fn s).sansMessages = s.sansMessages := rfl

/-! ## Which blocks are absent -/

/-- An absent panel has no enabled slot (R4, R24). -/
theorem slotEnabled_of_absent_panel {s : State} {p : Nat} (c : Nat) (h : s.fuses.panels ≤ p) : slotEnabled s p c = false := by
  simp [slotEnabled, slotMap, Nat.not_lt.2 h, bitOf]

/-- No block of an absent panel is present (R4). -/
theorem not_blkPresent_of_absent_panel {s : State} {p : Nat} {b : Blk} (hb : b.panel? = some p) (h : s.fuses.panels ≤ p) :
    blkPresent s b = false := by
  cases b with
  | str q c =>
    obtain rfl : q = p := by simpa [Blk.panel?] using hb
    exact slotEnabled_of_absent_panel c h
  | _ => simp_all [Blk.panel?, blkPresent]

/-- A block that is not present cannot be written. -/
theorem not_writable_of_absent {s : State} {b : Blk} (h : blkPresent s b = false) : writable s b = false := by
  simp [writable, h]

/-! ## Which block an address of a panel's window names -/

/-- The pages of a panel's window hold blocks of that panel (R255), its ply links by R16's numbering. -/
theorem panel?_of_mem_panelBlocks (p : Nat) : ∀ b ∈ panelBlocks p, b.panel? = some p := by
  simp [panelBlocks, Blk.panel?]
  omega

/-- A page of a panel's window holds a block of that panel, or is reserved (R255, R256). -/
theorem panel?_of_blockAt {p w : Nat} {b : Blk} {off : Nat} (hp : p < 8) (hw : w < 0x02000000)
    (h : blockAt (0x10000000 + 0x02000000 * p + w) = some (b, off)) : b.panel? = some p := by
  have hpanel : (0x10000000 + 0x02000000 * p + w - 0x10000000) / 0x02000000 = p := by omega
  unfold blockAt at h
  rw [if_neg (by omega), if_pos (by omega)] at h
  simp only [hpanel] at h
  split at h
  · obtain ⟨c, hc, hcb⟩ := Option.map_eq_some_iff.1 h
    obtain ⟨rfl, -⟩ := Prod.mk.inj hcb
    exact panel?_of_mem_panelBlocks p _ (List.mem_of_getElem? hc)
  · split at h
    · cases h
      rfl
    · cases h

/-- The core page of core c holds the core's stream block (R255). -/
theorem blockAt_corePage {p c w : Nat} (hp : p < 8) (hc : c < 288) (hlo : 0x10000 * (64 + c) ≤ w) (hhi : w < 0x10000 * (65 + c)) :
    blockAt (0x10000000 + 0x02000000 * p + w) = some (.str p c, w % 0x10000) := by
  have hpanel : (0x10000000 + 0x02000000 * p + w - 0x10000000) / 0x02000000 = p := by omega
  have hpage : (0x10000000 + 0x02000000 * p + w - 0x10000000) % 0x02000000 / 0x10000 = 64 + c := by omega
  have hoff : (0x10000000 + 0x02000000 * p + w) % 0x10000 = w % 0x10000 := by omega
  unfold blockAt
  rw [if_neg (by omega), if_pos (by omega)]
  simp only [hpanel, hpage, hoff]
  rw [if_neg (by omega), if_pos (by omega), Nat.add_sub_cancel_left]

/-! ## Addresses at which nothing answers -/

/-- A BAR0 address in the window of an absent panel, or in the core page of a disabled slot. -/
def Vacant (s : State) (a : Nat) : Prop :=
  ∃ p w, p < 8 ∧ w < 0x02000000 ∧ a = 0x10000000 + 0x02000000 * p + w
    ∧ (s.fuses.panels ≤ p ∨ ∃ c, c < 288 ∧ slotEnabled s p c = false ∧ 0x10000 * (64 + c) ≤ w ∧ w < 0x10000 * (65 + c))

/-- Only the fuses say which panels and slots the package lacks. -/
theorem Vacant.of_fuses_eq {s t : State} {a : Nat} (h : Vacant s a) (hf : t.fuses = s.fuses) : Vacant t a := by
  simpa only [Vacant, slotEnabled, slotMap, hf] using h

theorem vacant_dropLatch {s : State} {a : Nat} (fn : Nat) (h : Vacant s a) : Vacant (dropLatch fn s) a := h.of_fuses_eq rfl

/-- The other half of an aligned 8-byte access to such a place is such a place. -/
theorem Vacant.upperHalf {s : State} {a : Nat} (h : Vacant s a) (ha : a % 8 = 0) : Vacant s (a + 4) := by
  obtain ⟨p, w, hp, hw, rfl, h⟩ := h
  refine ⟨p, w + 4, hp, by omega, by omega, ?_⟩
  obtain h | ⟨c, hc, hs, hlo, hhi⟩ := h
  · exact .inl h
  · exact .inr ⟨c, hc, hs, by omega, by omega⟩

/-- A block named by such an address is not present. -/
theorem Vacant.not_blkPresent {s : State} {a : Nat} {b : Blk} {off : Nat} (h : Vacant s a) (hb : blockAt a = some (b, off)) :
    blkPresent s b = false := by
  obtain ⟨p, w, hp, hw, rfl, h | ⟨c, hc, hs, hlo, hhi⟩⟩ := h
  · exact not_blkPresent_of_absent_panel (panel?_of_blockAt hp hw hb) h
  · rw [blockAt_corePage hp hc hlo hhi] at hb
    cases hb
    exact hs

/-- A target at which nothing answers: no place, a block that is not present, the local SRAM of an absent panel. -/
def Target.Silent (s : State) : Target → Prop
  | .nothing => True
  | .reg b _ => blkPresent s b = false
  | .sram p _ => s.fuses.panels ≤ p
  | .doorbell _ _ | .config _ => False

/-- What the physical function or a hart reaches there does not answer. -/
theorem Vacant.silent_targetAt {s : State} {fn a : Nat} (h : Vacant s a) (hfn : fn = 0 ∨ 65 ≤ fn) : (targetAt s fn a).Silent s := by
  have hbar : 0x10000000 ≤ a ∧ a < 0x20000000 := by
    obtain ⟨p, w, hp, hw, rfl, -⟩ := h
    omega
  unfold targetAt
  extract_lets pf p w page off
  rw [if_neg (by omega), if_pos (by omega), if_pos (hfn.imp_left decide_eq_true)]
  split
  · next hsram =>
    obtain ⟨q, v, hq, hv, rfl, h | ⟨c, hc, -, hlo, hhi⟩⟩ := h
    · change s.fuses.panels ≤ (0x10000000 + 0x02000000 * q + v - 0x10000000) / 0x02000000
      omega
    · unfold w at hsram
      omega
  · split
    · next b o hb => exact h.not_blkPresent hb
    · trivial

/-! ## Accesses there -/

/-- An absent block shows 0 in every register (R4, R22). -/
theorem view_of_absent {s : State} {b : Blk} (off : Nat) (h : blkPresent s b = false) : view s b off = 0 := by
  simp [view, h]

theorem readWord_of_absent {s : State} {b : Blk} (off : Nat) (h : blkPresent s b = false) : readWord b off s = (0, s) := by
  simp [readWord, not_writable_of_absent h, view_of_absent off h]

/-- The read of a register of an absent block answers 0, and can leave a latched half. -/
theorem readLatching_of_absent {s : State} {b : Blk} (fn addr off : Nat) (h : blkPresent s b = false) :
    (readAt.readLatching fn addr b off s).1 = 0 ∧ (readAt.readLatching fn addr b off s).2.sansMessages = s.sansMessages := by
  unfold readAt.readLatching
  rw [readWord_of_absent off h]
  cases b.hiOf off with
  | none => exact ⟨rfl, rfl⟩
  | some hi => exact ⟨rfl, rfl⟩

/-- The local SRAM of an absent panel cannot be reached. -/
theorem sramReach_of_absent_panel {s : State} {p : Nat} (fn off : Nat) (h : s.fuses.panels ≤ p) : sramReach s fn p off = false := by
  simp [sramReach, Nat.not_lt.2 h]

/-- A 4-byte read at a vacant address answers 0, and changes nothing but the function's latch. -/
theorem readAt_of_vacant {s : State} {fn addr : Nat} (h : Vacant s addr) (hfn : fn = 0 ∨ 65 ≤ fn) :
    (readAt fn addr s).1 = 0 ∧ (readAt fn addr s).2.sansMessages = s.sansMessages := by
  have hs := (vacant_dropLatch fn h).silent_targetAt hfn
  unfold readAt
  extract_lets held s'
  change (targetAt s' fn addr).Silent s' at hs
  generalize targetAt s' fn addr = target at hs ⊢
  cases target with
  | reg b off =>
    have hread := readLatching_of_absent fn addr off hs
    cases held with
    | none => exact hread
    | some e =>
      change blkPresent s' b = false at hs
      simp only [hs, Bool.and_false, Bool.false_eq_true, if_false]
      exact hread
  | sram p off =>
    simp only [sramReach_of_absent_panel fn off hs]
    exact ⟨rfl, rfl⟩
  | doorbell q off => exact hs.elim
  | config n => exact hs.elim
  | nothing => exact ⟨rfl, rfl⟩

/-- A 4-byte write at a vacant address does no more than release the function's latch. -/
theorem writeAt_of_vacant {s : State} {fn addr : Nat} (v : Word) (h : Vacant s addr) (hfn : fn = 0 ∨ 65 ≤ fn) :
    writeAt fn addr v s = dropLatch fn s := by
  have hs := (vacant_dropLatch fn h).silent_targetAt hfn
  unfold writeAt
  extract_lets s'
  change (targetAt s' fn addr).Silent s' at hs
  generalize targetAt s' fn addr = target at hs ⊢
  cases target with
  | reg b off =>
    change writeWord fn b off v s' = s'
    simp [writeWord, not_writable_of_absent hs]
  | sram p off =>
    simp only [sramReach_of_absent_panel fn off hs]
    rfl
  | doorbell q off => exact hs.elim
  | config n => exact hs.elim
  | nothing => rfl

/-- An access of 8 bytes that is accepted is aligned to 8 bytes (R361). -/
theorem aligned_of_accessOk_eight {addr : Nat} (h : accessOk addr 8 = true) : addr % 8 = 0 := by
  obtain ⟨haligned, -⟩ : addr % 8 = 0 ∧ addr < 0x80000000 := by simpa [accessOk] using h
  exact haligned

/-- REGISTER_READ at a vacant address answers 0, and changes nothing else but the function's latch. -/
theorem registerRead_of_vacant {s : State} {fn addr size : Nat} (h : Vacant s addr) (hfn : fn = 0 ∨ 65 ≤ fn)
    (hok : accessOk addr size = true) : (registerRead fn addr size s).sansMessages = ({ s with reply := {} } : State).sansMessages := by
  obtain ⟨hlo, hlo'⟩ := readAt_of_vacant h hfn
  have blank {t : State} (ht : t.sansMessages = s.sansMessages) :
      ({ t with reply := {} } : State).sansMessages = ({ s with reply := {} } : State).sansMessages :=
    congrArg (fun x : State => { x with reply := {} }) ht
  simp only [registerRead, hok, Bool.not_true, Bool.false_eq_true, if_false]
  split
  · next h8 =>
    subst h8
    have hfuses := part_of_sansMessages State.fuses (fun _ => rfl) hlo'
    obtain ⟨hhi, hhi'⟩ := readAt_of_vacant ((h.upperHalf (aligned_of_accessOk_eight hok)).of_fuses_eq hfuses) hfn
    rw [hlo, hhi]
    exact blank (hhi'.trans hlo')
  · rw [hlo]
    exact blank hlo'

/-- REGISTER_WRITE at a vacant address changes nothing but the function's latch. -/
theorem registerWrite_of_vacant {s : State} {fn addr size : Nat} (v : DWord) (h : Vacant s addr) (hfn : fn = 0 ∨ 65 ≤ fn)
    (hok : accessOk addr size = true) : (registerWrite fn addr size v false s).sansMessages = s.sansMessages := by
  simp only [registerWrite, hok, Bool.not_true, Bool.false_eq_true, if_false, writeAt_of_vacant _ h hfn]
  split
  · next h8 =>
    subst h8
    rw [writeAt_of_vacant _ (vacant_dropLatch fn (h.upperHalf (aligned_of_accessOk_eight hok))) hfn, sansMessages_dropLatch,
      sansMessages_dropLatch]
  · exact sansMessages_dropLatch fn s

/-! ## The obligation -/

/-- Settles O60: no address there names a present block, and what an access changes then is the function's latch only. -/
theorem absentPanelsAndSlotsAreSilent : Obligations.AbsentPanelsAndSlotsAreSilent := by
  intro s fn p w size v hlive hfn hp hw habsent addr hok
  have hvacant : Vacant s addr := ⟨p, w, hp, hw, rfl, habsent⟩
  constructor
  · have hread := (sansMessages_settle _).trans (registerRead_of_vacant hvacant hfn hok)
    have hvalue := congrArg Reply.value (part_of_sansMessages State.reply (fun _ => rfl) hread)
    have hregs := part_of_sansMessages State.regs (fun _ => rfl) hread
    have hquiet := quiet_of_sansMessages hread
    exact ⟨_, act_of_live s _ hlive, hvalue, hregs, hquiet⟩
  · have hwrite := (sansMessages_settle _).trans (registerWrite_of_vacant v hvacant hfn hok)
    exact ⟨_, act_of_live s _ hlive, part_of_sansMessages State.regs (fun _ => rfl) hwrite,
      part_of_sansMessages State.cnt (fun _ => rfl) hwrite, part_of_sansMessages State.flt (fun _ => rfl) hwrite,
      quiet_of_sansMessages hwrite⟩

end Sys2Proof.Machine
end

section
/-! PROOFS. Power domains (R403 to R406): what a write of PWR_DOMi.EN and the end of STARTING or STOPPING leave unchanged, what the access
that a domain loses reports, and the table of R404. -/

namespace Sys2Proof.Machine

/-! ## What the power commands may write

Three blanked states, each without what the one before it leaves out. -/

/-- The state without what an access that is lost touches (R406): registers, cores, links, the host's reads and the answers to them, and
the functions' interrupt side. -/
def State.sansAccesses (s : State) : State :=
  { s.sansRegs with cores := [], links := [], hostReads := [], reply := {}, fns := [], sent := [] }

/-- The same without the memory controllers and their queues. -/
def State.sansQueues (s : State) : State := { s.sansAccesses with hbmStacks := [], stashes := [] }

/-- The same without what a domain loses or brings up (R403): skeins, local SRAM, harts, packet buffers. -/
def State.sansDomain (s : State) : State := { s.sansQueues with skein := [], sram := [], harts := [], niBufs := [] }

theorem sansAccesses_of_sansRegs {s t : State} (h : t.sansRegs = s.sansRegs) : t.sansAccesses = s.sansAccesses :=
  congrArg (fun x : State => { x with cores := [], links := [], hostReads := [], reply := {}, fns := [], sent := [] }) h

theorem sansQueues_of_sansAccesses {s t : State} (h : t.sansAccesses = s.sansAccesses) : t.sansQueues = s.sansQueues :=
  congrArg (fun x : State => { x with hbmStacks := [], stashes := [] }) h

theorem sansDomain_of_sansQueues {s t : State} (h : t.sansQueues = s.sansQueues) : t.sansDomain = s.sansDomain :=
  congrArg (fun x : State => { x with skein := [], sram := [], harts := [], niBufs := [] }) h

theorem sansDomain_of_sansAccesses {s t : State} (h : t.sansAccesses = s.sansAccesses) : t.sansDomain = s.sansDomain :=
  sansDomain_of_sansQueues (sansQueues_of_sansAccesses h)

/-- A part of the state that is not blanked is the same in two states that agree once blanked. -/
theorem part_of_blank {α : Type} (blank : State → State) {s t : State} (part : State → α) (hpart : ∀ x, part (blank x) = part x)
    (h : blank t = blank s) : part t = part s := by
  rw [← hpart t, h, hpart s]

/-- No memory is among what a lost access or a controller's queue touches. -/
theorem sameMemories_of_sansQueues {s t : State} (h : t.sansQueues = s.sansQueues) : SameMemories s t :=
  have keeps {α : Type} (part : State → α) (hpart : ∀ x : State, part x.sansQueues = part x) : part t = part s :=
    part_of_blank State.sansQueues part hpart h
  ⟨keeps State.skein fun _ => rfl, keeps State.hbm fun _ => rfl, keeps State.stashMem fun _ => rfl, keeps State.sram fun _ => rfl,
    keeps State.hostMem fun _ => rfl, keeps State.bootMem fun _ => rfl, keeps State.bbMem fun _ => rfl⟩

theorem SameMemories.trans {s t u : State} (h : SameMemories s t) (h' : SameMemories t u) : SameMemories s u := by
  obtain ⟨hskein, hhbm, hstash, hsram, hhost, hboot, hbb⟩ := h
  obtain ⟨hskein', hhbm', hstash', hsram', hhost', hboot', hbb'⟩ := h'
  exact ⟨hskein'.trans hskein, hhbm'.trans hhbm, hstash'.trans hstash, hsram'.trans hsram, hhost'.trans hhost, hboot'.trans hboot,
    hbb'.trans hbb⟩

/-- What touches registers alone is quiet. -/
theorem quiet_of_sansRegs {s t : State} (h : t.sansRegs = s.sansRegs) : Quiet s t :=
  ⟨sameMemories_of_sansQueues (sansQueues_of_sansAccesses (sansAccesses_of_sansRegs h)),
    part_of_blank State.sansRegs State.cores (fun _ => rfl) h⟩

/-- The memories that outlive their domain (R403), and those of the host and of the boot flash, are not among what a domain loses. -/
theorem lasting_of_sansDomain {s t : State} (h : t.sansDomain = s.sansDomain) :
    t.hbm = s.hbm ∧ t.stashMem = s.stashMem ∧ t.hostMem = s.hostMem ∧ t.bootMem = s.bootMem ∧ t.bbMem = s.bbMem :=
  have keeps {α : Type} (part : State → α) (hpart : ∀ x : State, part x.sansDomain = part x) : part t = part s :=
    part_of_blank State.sansDomain part hpart h
  ⟨keeps State.hbm fun _ => rfl, keeps State.stashMem fun _ => rfl, keeps State.hostMem fun _ => rfl, keeps State.bootMem fun _ => rfl,
    keeps State.bbMem fun _ => rfl⟩

/-- The domains are not among what a domain loses or brings up. -/
theorem dom_of_sansDomain {s t : State} (h : t.sansDomain = s.sansDomain) (q j : Nat) : t.dom q j = s.dom q j :=
  part_of_blank State.sansDomain (fun x : State => x.dom q j) (fun _ => rfl) h

theorem sansDomain_setRegN (s : State) (b : Blk) (off v : Nat) : (s.setRegN b off v).sansDomain = s.sansDomain :=
  sansDomain_of_sansAccesses (sansAccesses_of_sansRegs (sansRegs_setRegN s b off v))

theorem sansDomain_setLink (s : State) (l : Nat) (x : Link) : (s.setLink l x).sansDomain = s.sansDomain := rfl

theorem sansDomain_setHbmStack (s : State) (p st : Nat) (x : HbmStack) : (s.setHbmStack p st x).sansDomain = s.sansDomain := rfl

/-! ## The report of a lost access -/

@[simp] theorem sansRegs_domainOff (s : State) (k p i : Nat) : (domainOff s k p i).sansRegs = s.sansRegs :=
  (sansRegs_raiseErr _ _ _ _).trans (sansRegs_recordFirst _ _ _ _ _ _ fun x => sansRegs_setRegN x _ _ _)

@[simp] theorem sansRegs_domainOffHost (s : State) (p i : Nat) : (domainOffHost s p i).sansRegs = s.sansRegs :=
  (sansRegs_raiseErr _ _ _ _).trans (sansRegs_recordFirst _ _ _ _ _ _ fun x => sansRegs_setRegN x _ _ _)

@[simp] theorem sansAccesses_domainOff (s : State) (k p i : Nat) : (domainOff s k p i).sansAccesses = s.sansAccesses :=
  sansAccesses_of_sansRegs (sansRegs_domainOff s k p i)

@[simp] theorem sansAccesses_domainOffHost (s : State) (p i : Nat) : (domainOffHost s p i).sansAccesses = s.sansAccesses :=
  sansAccesses_of_sansRegs (sansRegs_domainOffHost s p i)

/-! ## What becomes of a lost access -/

@[simp] theorem sansAccesses_zeroBeats (s : State) (k id : Nat) (planned fifo : Bool) (dst beat n : Nat) :
    (zeroBeats s k id planned fifo dst beat n).sansAccesses = s.sansAccesses := rfl

@[simp] theorem sansAccesses_fetchReturns (s : State) (k id ready : Nat) (data : List Byte) :
    (fetchReturns s k id ready data).sansAccesses = s.sansAccesses := rfl

@[simp] theorem regs_zeroBeats (s : State) (k id : Nat) (planned fifo : Bool) (dst beat n : Nat) :
    (zeroBeats s k id planned fifo dst beat n).regs = s.regs := rfl

/-- A part of a host read touches the host's reads and the answer alone. -/
theorem hostReadPart_eq (s : State) (id off : Nat) (data : List Byte) :
    ∃ reads answer, hostReadPart s id off data = { s with hostReads := reads, reply := answer } := by
  unfold hostReadPart
  split
  · exact ⟨s.hostReads, s.reply, rfl⟩
  · extract_lets bytes
    split
    · exact ⟨_, _, rfl⟩
    · exact ⟨_, s.reply, rfl⟩

@[simp] theorem sansAccesses_hostReadPart (s : State) (id off : Nat) (data : List Byte) :
    (hostReadPart s id off data).sansAccesses = s.sansAccesses := by
  obtain ⟨reads, answer, h⟩ := hostReadPart_eq s id off data
  rw [h]
  rfl

@[simp] theorem regs_hostReadPart (s : State) (id off : Nat) (data : List Byte) : (hostReadPart s id off data).regs = s.regs := by
  obtain ⟨reads, answer, h⟩ := hostReadPart_eq s id off data
  rw [h]

@[simp] theorem sansAccesses_granuleLost (p : Nat) (s : State) (g : Granule) : (granuleLost p s g).sansAccesses = s.sansAccesses := by
  unfold granuleLost
  split
  · exact sansAccesses_domainOff _ _ _ _
  · rw [sansAccesses_zeroBeats, sansAccesses_domainOff]
  · rw [sansAccesses_zeroBeats, sansAccesses_domainOff]
  · rw [sansAccesses_fetchReturns, sansAccesses_domainOff]
  · exact sansAccesses_domainOffHost _ _ _
  · rw [sansAccesses_hostReadPart, sansAccesses_domainOffHost]

@[simp] theorem sansAccesses_dropInto (s : State) (l : Nat) (dest : Option PktRoute) : (dropInto s l dest).sansAccesses = s.sansAccesses := by
  unfold dropInto
  extract_lets x s1
  split <;> rfl

@[simp] theorem sansAccesses_dropForCore (s : State) (k : Nat) : (dropForCore s k).sansAccesses = s.sansAccesses := by
  refine foldl_keeps State.sansAccesses _ (fun x e => ?_) s.links s
  split
  · split
    · exact sansAccesses_dropInto _ _ _
    · rfl
  · rfl

@[simp] theorem sansAccesses_abandonBox (s : State) (p : Nat) : (abandonBox s p).sansAccesses = s.sansAccesses := by
  unfold abandonBox
  split
  · exact sansAccesses_of_sansRegs (sansRegs_raiseErr _ _ _ _)
  · rfl

/-- What is on its way to a core is lost without a trace outside registers, cores and links. -/
@[simp] theorem sansAccesses_coreLost (i : Nat) (s : State) (k : Nat) : (coreLost i s k).sansAccesses = s.sansAccesses := by
  unfold coreLost
  extract_lets d c p sent own s1 s2 s3 s4
  have h1 : s1.sansAccesses = s.sansAccesses := sansAccesses_dropForCore s k
  have h2 : s2.sansAccesses = s1.sansAccesses := foldl_keeps State.sansAccesses _ (fun x l => sansAccesses_domainOff _ _ _ _) sent s1
  have h3 : s3.sansAccesses = s2.sansAccesses := by
    refine foldl_keeps State.sansAccesses _ (fun x b => ?_) own s2
    split
    · split <;> rfl
    · rfl
  have h4 : s4.sansAccesses = s3.sansAccesses := by
    unfold s4
    split
    · exact sansAccesses_domainOff _ _ _ _
    · rfl
  have h : s4.sansAccesses = s.sansAccesses := h4.trans (h3.trans (h2.trans h1))
  split
  · exact (sansAccesses_domainOffHost _ _ _).trans h
  · exact h

/-! ## The accesses that a domain loses as it leaves ON -/

/-- The requests that wait at stack st of panel p are lost. -/
def stackLost (p : Nat) (s : State) (st : Nat) : State :=
  (s.hbmStack p st).queue.foldl (granuleLost p) (s.setHbmStack p st { s.hbmStack p st with queue := [] })

theorem hbmLost_eq (s : State) (p : Nat) : hbmLost s p = [0, 1, 2].foldl (stackLost p) s := rfl

@[simp] theorem sansQueues_stackLost (p : Nat) (s : State) (st : Nat) : (stackLost p s st).sansQueues = s.sansQueues := by
  unfold stackLost
  refine Eq.trans (sansQueues_of_sansAccesses (foldl_keeps State.sansAccesses (granuleLost p) (sansAccesses_granuleLost p) _ _)) ?_
  rfl

@[simp] theorem sansQueues_hbmLost (s : State) (p : Nat) : (hbmLost s p).sansQueues = s.sansQueues := by
  rw [hbmLost_eq]
  exact foldl_keeps State.sansQueues (stackLost p) (sansQueues_stackLost p) [0, 1, 2] s

/-- A page read that waits at the stash of panel p is lost. -/
def pageLost (p : Nat) (s : State) (r : StashReq) : State :=
  zeroBeats (domainOff s r.core p 10) r.core r.op false r.feed r.dst r.beat 64

theorem stashLost_eq (s : State) (p : Nat) :
    stashLost s p = ((abandonBox s p).stash p).reqs.foldl (pageLost p)
      ((abandonBox s p).setStash p { (abandonBox s p).stash p with reqs := [] }) := rfl

@[simp] theorem sansAccesses_pageLost (p : Nat) (s : State) (r : StashReq) : (pageLost p s r).sansAccesses = s.sansAccesses := by
  unfold pageLost
  rw [sansAccesses_zeroBeats, sansAccesses_domainOff]

theorem sansQueues_setStash (s : State) (p : Nat) (x : Stash) : (s.setStash p x).sansQueues = s.sansQueues := rfl

@[simp] theorem sansQueues_stashLost (s : State) (p : Nat) : (stashLost s p).sansQueues = s.sansQueues := by
  have hbox : (abandonBox s p).sansQueues = s.sansQueues := sansQueues_of_sansAccesses (sansAccesses_abandonBox s p)
  rw [stashLost_eq]
  refine (sansQueues_of_sansAccesses (foldl_keeps State.sansAccesses (pageLost p) (sansAccesses_pageLost p) _ _)).trans ?_
  rw [sansQueues_setStash, hbox]

@[simp] theorem sansQueues_accessesLost (s : State) (p i : Nat) : (accessesLost s p i).sansQueues = s.sansQueues := by
  unfold accessesLost
  split
  · exact sansQueues_hbmLost s p
  · split
    · exact sansQueues_stashLost s p
    · split
      · exact sansQueues_of_sansAccesses (foldl_keeps State.sansAccesses (coreLost i) (sansAccesses_coreLost i) _ s)
      · rfl

/-- The control complex and the ply links have no accesses of this kind. -/
theorem accessesLost_of_other {i : Nat} (s : State) (p : Nat) (hi : i = 8 ∨ i = 11) : accessesLost s p i = s := by
  obtain rfl | rfl := hi <;> rfl

/-! ## What a domain brings up, and what it loses -/

@[simp] theorem sansDomain_freshCore (s : State) (k : Nat) : (freshCore s k).sansDomain = s.sansDomain := rfl

@[simp] theorem sansDomain_foldl_freshCore (l : List Nat) (s : State) : (l.foldl freshCore s).sansDomain = s.sansDomain :=
  foldl_keeps State.sansDomain freshCore sansDomain_freshCore l s

@[simp] theorem sansDomain_freeBufs (s : State) : (freeBufs s).sansDomain = s.sansDomain := by
  refine foldl_keeps State.sansDomain _ (fun x p => ?_) (List.range s.fuses.panels) s
  rfl

@[simp] theorem sansDomain_releaseData (s : State) (d : TxData) : (releaseData s d).sansDomain = s.sansDomain := by
  unfold releaseData
  extract_lets s1
  have h1 : s1.sansDomain = s.sansDomain := by unfold s1; split <;> rfl
  split
  · exact h1
  · exact h1

@[simp] theorem sansDomain_dropForLink (s : State) (o : Nat) : (dropForLink s o).sansDomain = s.sansDomain := by
  refine foldl_keeps State.sansDomain _ (fun x e => ?_) s.links s
  split <;> rfl

@[simp] theorem sansDomain_emptyLink (s : State) (l : Nat) : (emptyLink s l).sansDomain = s.sansDomain := by
  unfold emptyLink
  extract_lets s0 x s1 s2
  have h0 : s0.sansDomain = s.sansDomain :=
    (sansDomain_dropForLink _ _).trans (sansDomain_of_sansAccesses (sansAccesses_dropInto s l none))
  have h1 : s1.sansDomain = s0.sansDomain := foldl_keeps State.sansDomain releaseData sansDomain_releaseData x.dataQ _
  have h2 : s2.sansDomain = s1.sansDomain := foldl_keeps State.sansDomain (dropThrough l) (fun _ _ => rfl) _ s1
  have hcores := foldl_keeps State.sansDomain (dropLanding l) (fun _ _ => rfl) (s2.cores.map (·.1)) s2
  exact hcores.trans (h2.trans (h1.trans h0))

@[simp] theorem sansDomain_flushLink (s : State) (l : Nat) : (flushLink s l).sansDomain = s.sansDomain := by
  unfold flushLink
  split
  · exact (sansDomain_of_sansAccesses (sansAccesses_of_sansRegs (sansRegs_raiseErr _ _ _ _))).trans (sansDomain_emptyLink s l)
  · exact sansDomain_emptyLink s l

/-- Link l is flushed and then DISABLED. -/
def linkOff (s : State) (l : Nat) : State :=
  if (s.link l).st = .disabled then s
  else ((flushLink s l).setLink l {}).setRegN (plyBlk l) 0x40 (setBits ((flushLink s l).regN (plyBlk l) 0x40) 0 1 0)

theorem linksOff_eq (s : State) (p : Nat) :
    linksOff s p = { (List.range 4).foldl (fun x j => linkOff x (4 * p + j)) s with
      niBufs := FMap.put 0 ((List.range 4).foldl (fun x j => linkOff x (4 * p + j)) s).niBufs p 0 } := rfl

@[simp] theorem sansDomain_linkOff (s : State) (l : Nat) : (linkOff s l).sansDomain = s.sansDomain := by
  unfold linkOff
  split
  · rfl
  · rw [sansDomain_setRegN, sansDomain_setLink, sansDomain_flushLink]

theorem sansDomain_niBufs (s : State) (x : FMap Nat) : ({ s with niBufs := x } : State).sansDomain = s.sansDomain := rfl

@[simp] theorem sansDomain_linksOff (s : State) (p : Nat) : (linksOff s p).sansDomain = s.sansDomain := by
  rw [linksOff_eq, sansDomain_niBufs]
  exact foldl_keeps State.sansDomain (fun x j => linkOff x (4 * p + j)) (fun x j => sansDomain_linkOff x (4 * p + j)) (List.range 4) s

@[simp] theorem sansDomain_enterFree (s : State) (p st : Nat) : (enterFree s p st).sansDomain = s.sansDomain := by
  unfold enterFree
  split
  · rfl
  · extract_lets h
    rw [sansDomain_setHbmStack, sansDomain_setRegN]

@[simp] theorem sansDomain_domainOn (s : State) (p i : Nat) : (domainOn s p i).sansDomain = s.sansDomain := by
  unfold domainOn
  split
  · exact sansDomain_foldl_freshCore _ s
  · split
    · refine foldl_keeps State.sansDomain _ (fun x st => ?_) [0, 1, 2] s
      rw [sansDomain_enterFree, sansDomain_setHbmStack]
    · split <;> rfl

@[simp] theorem sansDomain_domainLost (s : State) (p i : Nat) : (domainLost s p i).sansDomain = s.sansDomain := by
  unfold domainLost
  split
  · rw [sansDomain_freeBufs, sansDomain_foldl_freshCore]
  · split
    · exact sansDomain_linksOff s p
    · split <;> rfl

/-! ## Registers that a report sets and leaves -/

/-- Every block begins at a page (R254, R255). -/
theorem base_mod_page (b : Blk) : b.base % 0x10000 = 0 := by
  cases b <;> simp only [Blk.base, Blk.panel?, Blk.page] <;> omega

/-- A trigger writes no register but the recorder's count of the triggers that it missed. -/
theorem reg_trigger_of_ne (s : State) (r bit typ blkBit inst : Nat) {b : Blk} {off : Nat} (h : b.base + off ≠ (evrBlk r).base + 0x54) :
    (trigger s r bit typ blkBit inst).reg b off = s.reg b off := by
  unfold trigger
  extract_lets c e
  split
  · rfl
  · split
    · exact State.reg_setReg_of_ne _ _ _ _ _ _ h
    · rfl

theorem reg_triggerBlk_of_ne (s : State) (c : Blk) (bit blkBit : Nat) {b : Blk} {off : Nat}
    (h : ∀ r, scopeOf c = some r → b.base + off ≠ (evrBlk r).base + 0x54) : (triggerBlk s c bit blkBit).reg b off = s.reg b off := by
  unfold triggerBlk
  split
  · rfl
  · next r hr => exact reg_trigger_of_ne s r _ _ _ _ (h r hr)

/-- The stop request of an error touches no register. -/
theorem regs_raiseErr_stop (s : State) (b : Blk) (n : Nat) (own : Bool) :
    (if bitOf b.stopBits n && own then raiseStop s b n else s).regs = s.regs := by
  split <;> rfl

/-- An error writes no register but BLK_ERR, BLK_ERR_FIRST and a recorder's count. -/
theorem reg_raiseErr (s : State) (b : Blk) (n : Nat) (own : Bool) {c : Blk} {off : Nat} (hfirst : c.base + off ≠ b.base + 0x1C)
    (htrig : ∀ r, scopeOf b = some r → c.base + off ≠ (evrBlk r).base + 0x54) :
    (raiseErr s b n own).reg c off = (s.setRegN b 0x14 (s.regN b 0x14 ||| 2 ^ n)).reg c off := by
  unfold raiseErr
  extract_lets old fresh s0 s1 u s2 s3
  have h1 : s1.reg c off = (s.setRegN b 0x14 (s.regN b 0x14 ||| 2 ^ n)).reg c off := by
    have h0 : s0.regs = s.regs := regs_raiseErr_stop s b n own
    unfold s1 old State.reg State.setRegN State.setReg State.noteSet
    rw [h0]
  have h2 : s2.reg c off = s1.reg c off := by
    unfold s2
    split
    · exact State.reg_setReg_of_ne _ _ _ _ _ _ hfirst
    · rfl
  have h3 : s3.reg c off = s2.reg c off := by
    unfold s3
    split
    · split <;> rfl
    · rfl
  rw [reg_triggerBlk_of_ne _ _ _ _ htrig]
  exact h3.trans (h2.trans h1)

/-- An error sets its bit of BLK_ERR (R372). -/
theorem regBit_raiseErr (s : State) (b : Blk) {n : Nat} (own : Bool) (hn : n < 32) : (raiseErr s b n own).regBit b 0x14 n = true := by
  have hpage := base_mod_page b
  have herr : (raiseErr s b n own).reg b 0x14 = BitVec.ofNat 32 (s.regN b 0x14 ||| 2 ^ n) := by
    rw [reg_raiseErr s b n own (by omega) fun r _ => by have := base_mod_page (evrBlk r); omega]
    exact State.reg_setReg _ _ _ _
  have hbit : ((s.regN b 0x14 ||| 2 ^ n) % 2 ^ 32).testBit n = true := by
    rw [Nat.testBit_mod_two_pow, Nat.testBit_or, Nat.testBit_two_pow_self, Bool.or_true, Bool.and_true, decide_eq_true hn]
  unfold State.regBit State.regN bitOf
  rw [herr, BitVec.toNat_ofNat]
  simpa only [Nat.testBit_eq_decide_div_mod_eq] using hbit

/-- An error of a PWR block leaves the block's domain registers as they are. -/
theorem reg_raiseErr_pwrDom (s : State) (p n : Nat) (own : Bool) {i : Nat} (hi : i < 12) :
    (raiseErr s (.pwr p) n own).reg (.pwr p) (0x40 + 4 * i) = s.reg (.pwr p) (0x40 + 4 * i) := by
  have htrig : ∀ r, scopeOf (.pwr p) = some r → (Blk.pwr p).base + (0x40 + 4 * i) ≠ (evrBlk r).base + 0x54 := by
    intro r _
    unfold evrBlk
    split <;> simp only [Blk.base, Blk.panel?, Blk.page] <;> omega
  rw [reg_raiseErr s (.pwr p) n own (by omega) htrig]
  exact State.reg_setReg_same _ _ _ _ _ (by omega)

theorem regBit_of_regs {s t : State} (h : t.regs = s.regs) (b : Blk) (off k : Nat) : t.regBit b off k = s.regBit b off k := by
  unfold State.regBit State.regN State.reg
  rw [h]

/-- Every kind of lost access is PWR_DOMAIN_OFF (R406). -/
theorem regBit_domainOff (s : State) (k p i : Nat) : (domainOff s k p i).regBit (.pwr p) 0x14 1 = true :=
  regBit_raiseErr _ _ _ (by decide)

theorem regBit_domainOffHost (s : State) (p i : Nat) : (domainOffHost s p i).regBit (.pwr p) 0x14 1 = true :=
  regBit_raiseErr _ _ _ (by decide)

theorem regBit_granuleLost (p : Nat) (s : State) (g : Granule) : (granuleLost p s g).regBit (.pwr p) 0x14 1 = true := by
  unfold granuleLost
  split
  · exact regBit_domainOff s g.core p 9
  · exact regBit_domainOff s g.core p 9
  · exact regBit_domainOff s g.core p 9
  · exact regBit_domainOff s g.core p 9
  · exact regBit_domainOffHost s p 9
  · exact (regBit_of_regs (regs_hostReadPart _ _ _ _) _ _ _).trans (regBit_domainOffHost s p 9)

/-! ## The queues of a memory whose domain leaves ON -/

/-- What every step of a fold brings about holds after the fold of a list that is not empty. -/
theorem foldl_brings {α β : Type} (P : β → Prop) (g : β → α → β) (h : ∀ x a, P (g x a)) {l : List α} (hl : l ≠ []) (x : β) :
    P (l.foldl g x) := by
  cases l with
  | nil => exact absurd rfl hl
  | cons a l => exact foldl_keeps_prop P g (fun y b _ => h y b) l _ (h x a)

theorem hbmStack_stackLost (p : Nat) (s : State) (st n : Nat) :
    (stackLost p s st).hbmStack p n = if n = st then { s.hbmStack p st with queue := [] } else s.hbmStack p n := by
  have hkept := foldl_keeps State.sansAccesses (granuleLost p) (sansAccesses_granuleLost p) (s.hbmStack p st).queue
    (s.setHbmStack p st { s.hbmStack p st with queue := [] })
  refine (part_of_blank State.sansAccesses (fun x : State => x.hbmStack p n) (fun _ => rfl) hkept).trans ?_
  refine (State.hbmStack_setHbmStack _ _ _ _ _ _).trans ?_
  simp only [Nat.add_left_cancel_iff]

/-- PWR_DOMAIN_OFF stays set, and a stack at which something waits sets it. -/
theorem regBit_stackLost (p : Nat) (s : State) (st : Nat) (h : s.regBit (.pwr p) 0x14 1 = true ∨ (s.hbmStack p st).queue ≠ []) :
    (stackLost p s st).regBit (.pwr p) 0x14 1 = true := by
  by_cases hq : (s.hbmStack p st).queue = []
  · unfold stackLost
    rw [hq]
    exact h.resolve_right (not_not_intro hq)
  · exact foldl_brings (fun x : State => x.regBit (.pwr p) 0x14 1 = true) (granuleLost p) (regBit_granuleLost p) hq _

/-- No request waits at a stack of a panel whose domain 9 has left ON. -/
theorem queue_hbmLost (s : State) (p : Nat) {st : Nat} (hst : st < 3) : ((hbmLost s p).hbmStack p st).queue = [] := by
  simp only [hbmLost_eq, List.foldl_cons, List.foldl_nil, hbmStack_stackLost]
  interval_cases st <;> rfl

/-- Had one waited, that is PWR_DOMAIN_OFF (R406). -/
theorem regBit_hbmLost (s : State) (p : Nat) {st : Nat} (hst : st < 3) (hq : (s.hbmStack p st).queue ≠ []) :
    (hbmLost s p).regBit (.pwr p) 0x14 1 = true := by
  have hother (x : State) (n : Nat) (hn : st ≠ n) : (stackLost p x n).hbmStack p st = x.hbmStack p st := by
    rw [hbmStack_stackLost, if_neg hn]
  simp only [hbmLost_eq, List.foldl_cons, List.foldl_nil]
  obtain rfl | rfl | rfl : st = 0 ∨ st = 1 ∨ st = 2 := by omega
  · exact regBit_stackLost _ _ _ (.inl (regBit_stackLost _ _ _ (.inl (regBit_stackLost _ _ _ (.inr hq)))))
  · refine regBit_stackLost _ _ _ (.inl (regBit_stackLost _ _ _ (.inr ?_)))
    rwa [hother _ _ (by decide)]
  · refine regBit_stackLost _ _ _ (.inr ?_)
    rwa [hother _ _ (by decide), hother _ _ (by decide)]

theorem stash_abandonBox (s : State) (p q : Nat) : (abandonBox s p).stash q = s.stash q :=
  part_of_blank State.sansAccesses (fun x : State => x.stash q) (fun _ => rfl) (sansAccesses_abandonBox s p)

theorem regBit_pageLost (p : Nat) (s : State) (r : StashReq) : (pageLost p s r).regBit (.pwr p) 0x14 1 = true :=
  (regBit_of_regs (regs_zeroBeats _ _ _ _ _ _ _ _) _ _ _).trans (regBit_domainOff s r.core p 10)

/-- No page read waits at the stash of a panel whose domain 10 has left ON. -/
theorem reqs_stashLost (s : State) (p : Nat) : ((stashLost s p).stash p).reqs = [] := by
  rw [stashLost_eq]
  have hkept := foldl_keeps State.sansAccesses (pageLost p) (sansAccesses_pageLost p) ((abandonBox s p).stash p).reqs
    ((abandonBox s p).setStash p { (abandonBox s p).stash p with reqs := [] })
  rw [part_of_blank State.sansAccesses (fun z : State => z.stash p) (fun _ => rfl) hkept, State.stash_setStash, if_pos rfl]

/-- Had one waited, that is PWR_DOMAIN_OFF (R406). -/
theorem regBit_stashLost (s : State) (p : Nat) (hq : (s.stash p).reqs ≠ []) : (stashLost s p).regBit (.pwr p) 0x14 1 = true := by
  have hwaits : ((abandonBox s p).stash p).reqs ≠ [] := by rwa [stash_abandonBox]
  rw [stashLost_eq]
  exact foldl_brings (fun z : State => z.regBit (.pwr p) 0x14 1 = true) (pageLost p) (regBit_pageLost p) hwaits _

/-! ## The cores of a course pair as its domain comes on or goes off -/

theorem mem_pairCores {s : State} {p i j : Nat} (hj : j < 36) (he : slotEnabled s p (36 * i + j) = true) :
    coreKey p (36 * i + j) ∈ pairCores s p i :=
  List.mem_map.2 ⟨j, List.mem_filter.2 ⟨List.mem_range.2 hj, he⟩, rfl⟩

theorem core_freshCore (s : State) (k j : Nat) : (freshCore s k).core j = if j = k then {} else s.core j :=
  State.core_setCore s k j {}

/-- Each core of the list is in its initial state afterwards. -/
theorem core_foldl_freshCore {l : List Nat} {k : Nat} (h : k ∈ l) (s : State) : (l.foldl freshCore s).core k = {} := by
  have hkeeps (x : State) (j : Nat) (hx : x.core k = {}) : (freshCore x j).core k = {} := by
    rw [core_freshCore, hx, ite_self]
  induction l generalizing s with
  | nil => cases h
  | cons j l ih =>
    obtain rfl | hl := List.mem_cons.1 h
    · exact foldl_keeps_prop (fun x : State => x.core k = {}) freshCore hkeeps l _ ((core_freshCore s k k).trans (if_pos rfl))
    · exact ih hl _

theorem core_freeBufs (s : State) (k : Nat) : (freeBufs s).core k = s.core k := by
  refine foldl_keeps (fun x : State => x.core k) _ (fun x p => ?_) (List.range s.fuses.panels) s
  rfl

theorem core_domainOn {s : State} {p i j : Nat} (hi : i < 8) (hj : j < 36) (he : slotEnabled s p (36 * i + j) = true) :
    (domainOn s p i).core (coreKey p (36 * i + j)) = {} := by
  unfold domainOn
  rw [if_pos hi]
  exact core_foldl_freshCore (mem_pairCores hj he) s

theorem core_domainLost {s : State} {p i j : Nat} (hi : i < 8) (hj : j < 36) (he : slotEnabled s p (36 * i + j) = true) :
    (domainLost s p i).core (coreKey p (36 * i + j)) = {} := by
  unfold domainLost
  rw [if_pos hi, core_freeBufs]
  exact core_foldl_freshCore (mem_pairCores hj he) s

/-! ## The stacks of a panel as domain 9 comes on -/

/-- Entering FREE writes no mode but that of the stack, and that to FREE. -/
theorem planned_enterFree (s : State) (p st n : Nat) : planned (enterFree s p st) p n = (decide (n ≠ st) && planned s p n) := by
  unfold enterFree
  by_cases hn : n = st
  · subst hn
    cases hp : planned s p n with
    | false => simpa using hp
    | true =>
      have hreg : ((s.setRegN (.hbm p n) 0x40 0).regN (.hbm p n) 0x40) = 0 := by simp [State.regN]
      simp only [Bool.not_true, Bool.false_eq_true, if_false, ne_eq, not_true_eq_false, decide_false, Bool.false_and]
      change bitOf ((s.setRegN (.hbm p n) 0x40 0).regN (.hbm p n) 0x40) 0 = false
      rw [hreg]
      rfl
  · have hother : (s.setRegN (.hbm p st) 0x40 0).reg (.hbm p n) 0x40 = s.reg (.hbm p n) 0x40 :=
      State.reg_setReg_of_ne _ _ _ _ _ _ (by simp only [Blk.base, Blk.panel?, Blk.page]; omega)
    have hplanned : planned (s.setRegN (.hbm p st) 0x40 0) p n = planned s p n := by
      unfold planned State.regBit State.regN
      rw [hother]
    simp only [ne_eq, hn, not_false_eq_true, decide_true, Bool.true_and]
    split
    · rfl
    · exact hplanned

/-- Every stack is in FREE mode when domain 9 reaches ON (R403). -/
theorem planned_domainOn (s : State) (p : Nat) {st : Nat} (hst : st < 3) : planned (domainOn s p 9) p st = false := by
  have hfresh (x : State) (n m : Nat) (h : HbmStack) : planned (enterFree (x.setHbmStack p n h) p n) p m = (decide (m ≠ n) && planned x p m) :=
    planned_enterFree _ _ _ _
  change planned ([0, 1, 2].foldl _ s) p st = false
  simp only [List.foldl_cons, List.foldl_nil, hfresh]
  interval_cases st <;> simp

/-! ## The end of STARTING and of STOPPING -/

/-- STARTING ends: ON, or STOPPING where EN = 0 was written meanwhile (R404). -/
theorem domainReached_starting {s : State} {p i : Nat} (hp : p < s.fuses.panels) (hi : i < 12) (hst : (s.dom p i).st = .starting) :
    domainReached p i s = domainOn (s.setDom p i { st := if (s.dom p i).pendOff then .stopping else .on }) p i := by
  unfold domainReached
  extract_lets d
  rw [if_neg (by omega)]
  simp only [show d.st = .starting from hst]
  rfl

/-- STOPPING ends: OFF, or STARTING where EN = 1 was written meanwhile; the stash interface's only after its command (R403, R404). -/
theorem domainReached_stopping {s : State} {p i : Nat} (hp : p < s.fuses.panels) (hi : i < 12) (hst : (s.dom p i).st = .stopping)
    (hcmd : i = 10 → (s.stash p).cmd = none) :
    domainReached p i s = domainLost (s.setDom p i { st := if (s.dom p i).pendOn then .starting else .off }) p i := by
  unfold domainReached
  extract_lets d
  rw [if_neg (by omega)]
  simp only [show d.st = .stopping from hst]
  exact if_neg fun h => by simp [hcmd h.1] at h

/-! ## The table of R404 -/

/-- The row EN = 1. -/
def Dom.enabled (d : Dom) : Dom :=
  match d.st with
  | .off => { st := .starting }
  | .starting | .on => d
  | .stopping => { d with pendOn := true }

/-- The row EN = 0. -/
def Dom.disabled (d : Dom) : Dom :=
  match d.st with
  | .off => d
  | .starting => { d with pendOff := true }
  | .on => { st := .stopping }
  | .stopping => { d with pendOn := false }

/-- A domain as a write of EN with an effect leaves it, the register with it. -/
def State.storeDom (s : State) (p i : Nat) (en : Bool) (d : Dom) : State :=
  (s.setDom p i d).setRegN (.pwr p) (0x40 + 4 * i) (b2n en * 2 ^ 31)

/-- Beside the domain a store of EN writes a register only. -/
theorem storeDom_eq (s : State) (p i : Nat) (en : Bool) (d : Dom) :
    ∃ regs, s.storeDom p i en d = { s.setDom p i d with regs := regs } := ⟨_, rfl⟩

@[simp] theorem dom_storeDom (s : State) (p i : Nat) (en : Bool) (d : Dom) : (s.storeDom p i en d).dom p i = d := by
  obtain ⟨regs, h⟩ := storeDom_eq s p i en d
  rw [h]
  exact State.dom_setDom s p i d

theorem dom_storeDom_of_ne (s : State) {p i q j : Nat} (en : Bool) (d : Dom) (hi : i < 12) (hj : j < 12) (h : q ≠ p ∨ j ≠ i) :
    (s.storeDom p i en d).dom q j = s.dom q j := by
  obtain ⟨regs, hstore⟩ := storeDom_eq s p i en d
  rw [hstore]
  exact State.dom_setDom_of_ne s p i q j d (by omega)

/-- A write of EN with an effect is not counted. -/
theorem cnt_storeDom (s : State) (p i : Nat) (en : Bool) (d : Dom) : (s.storeDom p i en d).cnt = s.cnt := by
  obtain ⟨regs, h⟩ := storeDom_eq s p i en d
  rw [h]
  rfl

theorem quiet_storeDom (s : State) (p i : Nat) (en : Bool) (d : Dom) : Quiet s (s.storeDom p i en d) := by
  obtain ⟨regs, h⟩ := storeDom_eq s p i en d
  rw [h]
  exact ⟨⟨rfl, rfl, rfl, rfl, rfl, rfl, rfl⟩, rfl⟩

theorem hbmStack_storeDom (s : State) (p i : Nat) (en : Bool) (d : Dom) (q st : Nat) :
    (s.storeDom p i en d).hbmStack q st = s.hbmStack q st := by
  obtain ⟨regs, h⟩ := storeDom_eq s p i en d
  rw [h]
  rfl

theorem stash_storeDom (s : State) (p i : Nat) (en : Bool) (d : Dom) (q : Nat) : (s.storeDom p i en d).stash q = s.stash q := by
  obtain ⟨regs, h⟩ := storeDom_eq s p i en d
  rw [h]
  rfl

/-- EN = 1 has no effect, or stores what the table says. -/
theorem pwrDomWrite_enable (s : State) {p i : Nat} (hi : i < 12) :
    (pwrDomWrite p i true s = s ∧ (s.dom p i).enabled = s.dom p i)
    ∨ pwrDomWrite p i true s = s.storeDom p i true (s.dom p i).enabled := by
  unfold pwrDomWrite Dom.enabled
  extract_lets b d store
  rw [if_neg (by omega), if_pos rfl]
  cases hst : (s.dom p i).st with
  | off => exact .inr rfl
  | starting => exact .inl ⟨rfl, rfl⟩
  | on => exact .inl ⟨rfl, rfl⟩
  | stopping => exact .inr rfl

/-- EN = 0 that R405 refuses sets DOMAIN_REFUSED. -/
theorem pwrDomWrite_refused {s : State} {p i : Nat} (hi : i < 12) (h : domRefused s p i = true) :
    pwrDomWrite p i false s = raiseErr s (.pwr p) 0 := by
  unfold pwrDomWrite
  extract_lets b d store
  rw [if_neg (by omega), if_neg Bool.false_ne_true, if_pos h]

/-- EN = 0 that is not refused has no effect, stores what the table says, or does so as the domain leaves ON. -/
theorem pwrDomWrite_disable {s : State} {p i : Nat} (hi : i < 12) (h : domRefused s p i = false) :
    ((s.dom p i).st ≠ .on ∧ pwrDomWrite p i false s = s ∧ (s.dom p i).disabled = s.dom p i)
    ∨ ((s.dom p i).st ≠ .on ∧ pwrDomWrite p i false s = s.storeDom p i false (s.dom p i).disabled)
    ∨ ((s.dom p i).st = .on ∧ pwrDomWrite p i false s = accessesLost (s.storeDom p i false (s.dom p i).disabled) p i) := by
  unfold pwrDomWrite Dom.disabled
  extract_lets b d store
  rw [if_neg (by omega), if_neg Bool.false_ne_true, if_neg (ne_true_of_eq_false h)]
  cases hst : (s.dom p i).st with
  | off => exact .inl ⟨nofun, rfl, rfl⟩
  | starting => exact .inr (.inl ⟨nofun, rfl⟩)
  | on => exact .inr (.inr ⟨rfl, rfl⟩)
  | stopping => exact .inr (.inl ⟨nofun, rfl⟩)

/-! ## The row EN = 1 -/

/-- EN = 1 acts on its own domain alone, as the table says, and no write of it is counted. -/
theorem pwrDomWrite_enable_follows (s : State) (p : Nat) {i : Nat} (hi : i < 12) :
    (pwrDomWrite p i true s).cnt = s.cnt ∧ Quiet s (pwrDomWrite p i true s)
    ∧ (∀ q j, j < 12 → q ≠ p ∨ j ≠ i → (pwrDomWrite p i true s).dom q j = s.dom q j)
    ∧ (pwrDomWrite p i true s).dom p i = (s.dom p i).enabled := by
  obtain ⟨hw, hd⟩ | hw := pwrDomWrite_enable s (p := p) hi
  · rw [hw]
    exact ⟨rfl, quiet_of_sansMessages rfl, fun _ _ _ _ => rfl, hd.symm⟩
  · rw [hw]
    exact ⟨cnt_storeDom s p i _ _, quiet_storeDom s p i _ _, fun q j hj h => dom_storeDom_of_ne s _ _ hi hj h, dom_storeDom s p i _ _⟩

/-! ## The row EN = 0 -/

/-- What a domain that leaves ON loses is neither a memory nor a domain. -/
theorem dom_accessesLost (s : State) (p i q j : Nat) : (accessesLost s p i).dom q j = s.dom q j :=
  dom_of_sansDomain (sansDomain_of_sansQueues (sansQueues_accessesLost s p i)) q j

/-- EN = 0 that is not refused leaves every memory and every other domain as they are, and its own as the table says. -/
theorem pwrDomWrite_disable_follows {s : State} {p i : Nat} (hi : i < 12) (hr : domRefused s p i = false) :
    SameMemories s (pwrDomWrite p i false s)
    ∧ (∀ q j, j < 12 → q ≠ p ∨ j ≠ i → (pwrDomWrite p i false s).dom q j = s.dom q j)
    ∧ (pwrDomWrite p i false s).dom p i = (s.dom p i).disabled := by
  obtain ⟨-, hw, hd⟩ | ⟨-, hw⟩ | ⟨-, hw⟩ := pwrDomWrite_disable hi hr
  · rw [hw]
    exact ⟨sameMemories_of_sansQueues rfl, fun _ _ _ _ => rfl, hd.symm⟩
  · rw [hw]
    exact ⟨(quiet_storeDom s p i _ _).1, fun q j hj h => dom_storeDom_of_ne s _ _ hi hj h, dom_storeDom s p i _ _⟩
  · rw [hw]
    refine ⟨?_, fun q j hj h => ?_, ?_⟩
    · exact (quiet_storeDom s p i _ _).1.trans (sameMemories_of_sansQueues (sansQueues_accessesLost _ p i))
    · rw [dom_accessesLost, dom_storeDom_of_ne s _ _ hi hj h]
    · rw [dom_accessesLost, dom_storeDom]

/-- No core is touched but where a memory or a course pair leaves ON. -/
theorem cores_pwrDomWrite_disable {s : State} {p i : Nat} (hi : i < 12) (hr : domRefused s p i = false)
    (h : (s.dom p i).st ≠ .on ∨ i = 8 ∨ i = 11) : (pwrDomWrite p i false s).cores = s.cores := by
  obtain ⟨-, hw, -⟩ | ⟨-, hw⟩ | ⟨hon, hw⟩ := pwrDomWrite_disable hi hr
  · rw [hw]
  · rw [hw]
    exact (quiet_storeDom s p i _ _).2
  · rw [hw, accessesLost_of_other _ _ (h.resolve_left (not_not_intro hon))]
    exact (quiet_storeDom s p i _ _).2

/-- EN = 0 in ON is the store of the table's state, and the loss of the accesses. -/
theorem pwrDomWrite_leaves_on {s : State} {p i : Nat} (hi : i < 12) (hr : domRefused s p i = false) (hon : (s.dom p i).st = .on) :
    pwrDomWrite p i false s = accessesLost (s.storeDom p i false (s.dom p i).disabled) p i := by
  obtain ⟨h, -⟩ | ⟨h, -⟩ | ⟨-, hw⟩ := pwrDomWrite_disable hi hr
  · exact absurd hon h
  · exact absurd hon h
  · exact hw

/-- As domain 9 leaves ON, no request waits at its stacks any more; one that did is PWR_DOMAIN_OFF (R406). -/
theorem pwrDomWrite_empties_hbm {s : State} {p : Nat} (hr : domRefused s p 9 = false) (hon : (s.dom p 9).st = .on) (st : Nat) (hst : st < 3) :
    ((pwrDomWrite p 9 false s).hbmStack p st).queue = []
    ∧ ((s.hbmStack p st).queue ≠ [] → (pwrDomWrite p 9 false s).regBit (.pwr p) 0x14 1 = true) := by
  rw [pwrDomWrite_leaves_on (by decide) hr hon]
  refine ⟨queue_hbmLost _ p hst, fun hq => regBit_hbmLost _ p hst ?_⟩
  rwa [hbmStack_storeDom]

/-- As domain 10 leaves ON, no page read waits at its stash any more; one that did is PWR_DOMAIN_OFF (R406). -/
theorem pwrDomWrite_empties_stash {s : State} {p : Nat} (hr : domRefused s p 10 = false) (hon : (s.dom p 10).st = .on) :
    ((pwrDomWrite p 10 false s).stash p).reqs = []
    ∧ ((s.stash p).reqs ≠ [] → (pwrDomWrite p 10 false s).regBit (.pwr p) 0x14 1 = true) := by
  rw [pwrDomWrite_leaves_on (by decide) hr hon]
  refine ⟨reqs_stashLost _ p, fun hq => regBit_stashLost _ p ?_⟩
  rwa [stash_storeDom]

/-! ## The commands -/

/-- Two states that differ in functions and messages alone. -/
theorem eq_of_sansMessages {s t : State} (h : t.sansMessages = s.sansMessages) : t = { s with fns := t.fns, sent := t.sent } :=
  congrArg (fun y : State => { y with fns := t.fns, sent := t.sent }) h

/-- A command that has an effect answers it with the interrupt conditions followed, which is seen in the functions and the messages alone. -/
theorem exists_next_settle {w : State} {x : Host.Outcome State Fault Refusal} (hx : x = .next (settle w)) {P : State → Prop}
    (hP : ∀ (y : State) (f : FMap Fn) (m : List Msg), P y → P { y with fns := f, sent := m }) (h : P w) : ∃ t, x = .next t ∧ P t := by
  refine ⟨_, hx, ?_⟩
  rw [eq_of_sansMessages (sansMessages_settle w)]
  exact hP w _ _ h

theorem exec_pwrDomWrite {s : State} {p : Nat} (hl : Live s = true) (hw : writable s (.pwr p) = true) (i : Nat) (en : Bool) :
    exec (.pwrDomWrite p i en) s = .next (settle (pwrDomWrite p i en (dropLatch 0 s))) := by
  have hlatch : writable (dropLatch 0 s) (.pwr p) = true := hw
  change act s (fun x => onBlock (dropLatch 0 x) (.pwr p) (pwrDomWrite p i en)) = _
  rw [act_of_live s _ hl, onBlock_of_writable _ _ _ hlatch]

theorem exec_domainReached {s : State} (hl : Live s = true) (p i : Nat) :
    exec (.domainReached p i) s = .next (settle (domainReached p i s)) := act_of_live s _ hl

/-- The panel of a PWR block that can be written is present. -/
theorem panel_of_writable_pwr {s : State} {p : Nat} (h : writable s (.pwr p) = true) : p < s.fuses.panels := by
  have hpresent : blkPresent s (.pwr p) = true := (Bool.and_eq_true_iff.1 h).1
  exact of_decide_eq_true hpresent

/-! ## What a block shows -/

/-- BLK_STATE of a block that a domain holds shows the domain (R372, R404). -/
theorem view_blkState {s : State} {b : Blk} {p i : Nat} (hb : b.domain = some (p, i)) (hp : blkPresent s b = true) :
    view s b 0x10 = (s.dom p i).st.code + 4 * b2n (s.dom p i).pendOn := by
  have hpower : blkPower s b = (s.dom p i).st.code := by
    unfold blkPower
    rw [hb]
  have hheader : viewHeader s b 0x10 = (s.dom p i).st.code + 4 * b2n (s.dom p i).pendOn := by
    simp only [viewHeader, hpower, hb]
  have hshown : ((b.fields 0x10).isEmpty : Bool) = false := rfl
  simpa [view, viewBlock, hp, hshown] using hheader

/-! ## The obligations -/

/-- The writes of EN = 0 that R405 names are those that the model refuses. -/
theorem domRefused_of_use {s : State} {p i : Nat}
    (h : s.castSt = .released
      ∨ (i < 8 ∧ ∃ j, j < 36 ∧ ((s.core (coreKey p (36 * i + j))).stream.st = .armed ∨ (s.core (coreKey p (36 * i + j))).stream.st = .running))
      ∨ (i = 11 ∧ p = 0) ∨ (i = 11 ∧ ∃ j, j < 11 ∧ (s.dom p j).st ≠ .off)) : domRefused s p i = true := by
  simpa [domRefused, or_assoc, and_or_left] using h

/-- Settles O53: the writes that R405 names are the refused ones, and a refused one raises DOMAIN_REFUSED and does nothing else. -/
theorem aDomainInUseIsNotSwitchedOff : Obligations.ADomainInUseIsNotSwitchedOff := by
  intro s p i hl hw hi huse
  have hrefused : domRefused (dropLatch 0 s) p i = true := domRefused_of_use huse
  refine exists_next_settle (exec_pwrDomWrite hl hw i false) (fun _ _ _ h => h) ?_
  rw [pwrDomWrite_refused hi hrefused]
  have hkept := sansRegs_raiseErr (dropLatch 0 s) (.pwr p) 0 true
  have hquiet := quiet_of_sansRegs hkept
  exact ⟨(part_of_blank State.sansRegs State.doms (fun _ => rfl) hkept).trans rfl, reg_raiseErr_pwrDom (dropLatch 0 s) p 0 true hi,
    regBit_raiseErr _ _ _ (by decide), hquiet⟩

/-- Settles O52: each write of EN, and each end of STARTING and STOPPING, by the case that the model takes; what a domain loses or brings
up keeps the domains and the memories that R403 keeps. -/
theorem aDomainWriteFollowsTheTable : Obligations.ADomainWriteFollowsTheTable := by
  refine ⟨fun s p i hl hw hi => ?_, fun s b p i hb hp => view_blkState hb hp⟩
  intro kept
  have hp := panel_of_writable_pwr hw
  refine ⟨?_, fun hr => ?_, fun hst hcmd => ?_, fun hst => ?_⟩
  · exact exists_next_settle (exec_pwrDomWrite hl hw i true) (fun _ _ _ h => h) (pwrDomWrite_enable_follows (dropLatch 0 s) p hi)
  · refine exists_next_settle (exec_pwrDomWrite hl hw i false) (fun _ _ _ h => h) ?_
    have hrefused : domRefused (dropLatch 0 s) p i = false := hr
    obtain ⟨hmem, hothers, hown⟩ := pwrDomWrite_disable_follows hi hrefused
    refine ⟨hmem, hothers, cores_pwrDomWrite_disable hi hrefused, ?_, ?_, hown⟩
    · rintro rfl hon
      exact pwrDomWrite_empties_hbm hrefused hon
    · rintro rfl hon
      exact pwrDomWrite_empties_stash hrefused hon
  · refine exists_next_settle (exec_domainReached hl p i) (fun _ _ _ h => h) ?_
    rw [domainReached_stopping hp hi hst hcmd]
    have hkept := sansDomain_domainLost (s.setDom p i { st := if (s.dom p i).pendOn then .starting else .off }) p i
    have hlasting := lasting_of_sansDomain hkept
    refine ⟨?_, hlasting, fun hpair j hj he => core_domainLost hpair hj he⟩
    rw [dom_of_sansDomain hkept, State.dom_setDom]
  · refine exists_next_settle (exec_domainReached hl p i) (fun _ _ _ h => h) ?_
    rw [domainReached_starting hp hi hst]
    have hkept := sansDomain_domainOn (s.setDom p i { st := if (s.dom p i).pendOff then .stopping else .on }) p i
    have hlasting := lasting_of_sansDomain hkept
    refine ⟨?_, hlasting, fun hpair j hj he => core_domainOn hpair hj he, ?_⟩
    · rw [dom_of_sansDomain hkept, State.dom_setDom]
    · rintro st rfl hst3
      exact planned_domainOn _ p hst3

end Sys2Proof.Machine
end
